-- ==== Sys2Proof/Word.lean ====
section
/-! DEFINITION. The two widths of the machine: a register or a memory byte (u8) and an address (u16) (00_scope.md R6, R7). -/

namespace Sys2Proof

/-- A u8. -/
abbrev Byte := BitVec 8

/-- A u16. -/
abbrev Word := BitVec 16

end Sys2Proof
end

