-- ==== Sys2Proof/Syntax.lean ====
section
/-! DEFINITION. The instructions: one constructor for every row of spec/opcode_table.json. The 151 defined rows have one
constructor each (mnemonic and operand form, 30_encoding.md R104, R105). The 105 rows named ILLEGAL differ only in their
opcode byte, which the constructor `illegal` carries (R106). Operands are the operand bytes unscaled (R103): `v` an immediate,
`z` a zero-page address or pointer, `a` the 16-bit operand of an absolute or indirect form, `off` a branch offset. -/

namespace Sys2Proof

/-- The 56 mnemonics of 30_encoding.md R104, and the undefined opcode of R106. -/
inductive Mnemonic where
  | lda | ldx | ldy | sta | stx | sty | tax | tay | txa | tya | tsx | txs | adc | sbc
  | and | ora | eor | cmp | cpx | cpy | bit | inc | dec | inx | iny | dex | dey | asl
  | lsr | rol | ror | pha | php | pla | plp | jmp | jsr | rts | bcc | bcs | beq | bmi
  | bne | bpl | bvc | bvs | brk | rti | clc | cld | cli | clv | sec | sed | sei | nop
  | illegal
  deriving DecidableEq, Repr

/-- The thirteen operand forms of 40_addressing.md R130, and `none` for an undefined opcode. -/
inductive Mode where
  | imp | acc | imm | zp | zpx | zpy | abs | abx | aby | ind | izx | izy | rel | none
  deriving DecidableEq, Repr

/-- An instruction. Each comment gives the opcode byte, the assembler form and the rule. -/
inductive Instr where
  /-- A9 LDA #v (R160) -/
  | ldaImm (v : Byte)
  /-- A5 LDA z (R160) -/
  | ldaZp (z : Byte)
  /-- B5 LDA z,X (R160) -/
  | ldaZpx (z : Byte)
  /-- AD LDA a (R160) -/
  | ldaAbs (a : Word)
  /-- BD LDA a,X (R160) -/
  | ldaAbx (a : Word)
  /-- B9 LDA a,Y (R160) -/
  | ldaAby (a : Word)
  /-- A1 LDA (z,X) (R160) -/
  | ldaIzx (z : Byte)
  /-- B1 LDA (z),Y (R160) -/
  | ldaIzy (z : Byte)
  /-- A2 LDX #v (R161) -/
  | ldxImm (v : Byte)
  /-- A6 LDX z (R161) -/
  | ldxZp (z : Byte)
  /-- B6 LDX z,Y (R161) -/
  | ldxZpy (z : Byte)
  /-- AE LDX a (R161) -/
  | ldxAbs (a : Word)
  /-- BE LDX a,Y (R161) -/
  | ldxAby (a : Word)
  /-- A0 LDY #v (R162) -/
  | ldyImm (v : Byte)
  /-- A4 LDY z (R162) -/
  | ldyZp (z : Byte)
  /-- B4 LDY z,X (R162) -/
  | ldyZpx (z : Byte)
  /-- AC LDY a (R162) -/
  | ldyAbs (a : Word)
  /-- BC LDY a,X (R162) -/
  | ldyAbx (a : Word)
  /-- 85 STA z (R163) -/
  | staZp (z : Byte)
  /-- 95 STA z,X (R163) -/
  | staZpx (z : Byte)
  /-- 8D STA a (R163) -/
  | staAbs (a : Word)
  /-- 9D STA a,X (R163) -/
  | staAbx (a : Word)
  /-- 99 STA a,Y (R163) -/
  | staAby (a : Word)
  /-- 81 STA (z,X) (R163) -/
  | staIzx (z : Byte)
  /-- 91 STA (z),Y (R163) -/
  | staIzy (z : Byte)
  /-- 86 STX z (R164) -/
  | stxZp (z : Byte)
  /-- 96 STX z,Y (R164) -/
  | stxZpy (z : Byte)
  /-- 8E STX a (R164) -/
  | stxAbs (a : Word)
  /-- 84 STY z (R165) -/
  | styZp (z : Byte)
  /-- 94 STY z,X (R165) -/
  | styZpx (z : Byte)
  /-- 8C STY a (R165) -/
  | styAbs (a : Word)
  /-- AA TAX (R166) -/
  | tax
  /-- A8 TAY (R167) -/
  | tay
  /-- 8A TXA (R168) -/
  | txa
  /-- 98 TYA (R169) -/
  | tya
  /-- BA TSX (R170) -/
  | tsx
  /-- 9A TXS (R171) -/
  | txs
  /-- 69 ADC #v (R181) -/
  | adcImm (v : Byte)
  /-- 65 ADC z (R181) -/
  | adcZp (z : Byte)
  /-- 75 ADC z,X (R181) -/
  | adcZpx (z : Byte)
  /-- 6D ADC a (R181) -/
  | adcAbs (a : Word)
  /-- 7D ADC a,X (R181) -/
  | adcAbx (a : Word)
  /-- 79 ADC a,Y (R181) -/
  | adcAby (a : Word)
  /-- 61 ADC (z,X) (R181) -/
  | adcIzx (z : Byte)
  /-- 71 ADC (z),Y (R181) -/
  | adcIzy (z : Byte)
  /-- E9 SBC #v (R182) -/
  | sbcImm (v : Byte)
  /-- E5 SBC z (R182) -/
  | sbcZp (z : Byte)
  /-- F5 SBC z,X (R182) -/
  | sbcZpx (z : Byte)
  /-- ED SBC a (R182) -/
  | sbcAbs (a : Word)
  /-- FD SBC a,X (R182) -/
  | sbcAbx (a : Word)
  /-- F9 SBC a,Y (R182) -/
  | sbcAby (a : Word)
  /-- E1 SBC (z,X) (R182) -/
  | sbcIzx (z : Byte)
  /-- F1 SBC (z),Y (R182) -/
  | sbcIzy (z : Byte)
  /-- 29 AND #v (R183) -/
  | andImm (v : Byte)
  /-- 25 AND z (R183) -/
  | andZp (z : Byte)
  /-- 35 AND z,X (R183) -/
  | andZpx (z : Byte)
  /-- 2D AND a (R183) -/
  | andAbs (a : Word)
  /-- 3D AND a,X (R183) -/
  | andAbx (a : Word)
  /-- 39 AND a,Y (R183) -/
  | andAby (a : Word)
  /-- 21 AND (z,X) (R183) -/
  | andIzx (z : Byte)
  /-- 31 AND (z),Y (R183) -/
  | andIzy (z : Byte)
  /-- 09 ORA #v (R184) -/
  | oraImm (v : Byte)
  /-- 05 ORA z (R184) -/
  | oraZp (z : Byte)
  /-- 15 ORA z,X (R184) -/
  | oraZpx (z : Byte)
  /-- 0D ORA a (R184) -/
  | oraAbs (a : Word)
  /-- 1D ORA a,X (R184) -/
  | oraAbx (a : Word)
  /-- 19 ORA a,Y (R184) -/
  | oraAby (a : Word)
  /-- 01 ORA (z,X) (R184) -/
  | oraIzx (z : Byte)
  /-- 11 ORA (z),Y (R184) -/
  | oraIzy (z : Byte)
  /-- 49 EOR #v (R185) -/
  | eorImm (v : Byte)
  /-- 45 EOR z (R185) -/
  | eorZp (z : Byte)
  /-- 55 EOR z,X (R185) -/
  | eorZpx (z : Byte)
  /-- 4D EOR a (R185) -/
  | eorAbs (a : Word)
  /-- 5D EOR a,X (R185) -/
  | eorAbx (a : Word)
  /-- 59 EOR a,Y (R185) -/
  | eorAby (a : Word)
  /-- 41 EOR (z,X) (R185) -/
  | eorIzx (z : Byte)
  /-- 51 EOR (z),Y (R185) -/
  | eorIzy (z : Byte)
  /-- C9 CMP #v (R186) -/
  | cmpImm (v : Byte)
  /-- C5 CMP z (R186) -/
  | cmpZp (z : Byte)
  /-- D5 CMP z,X (R186) -/
  | cmpZpx (z : Byte)
  /-- CD CMP a (R186) -/
  | cmpAbs (a : Word)
  /-- DD CMP a,X (R186) -/
  | cmpAbx (a : Word)
  /-- D9 CMP a,Y (R186) -/
  | cmpAby (a : Word)
  /-- C1 CMP (z,X) (R186) -/
  | cmpIzx (z : Byte)
  /-- D1 CMP (z),Y (R186) -/
  | cmpIzy (z : Byte)
  /-- E0 CPX #v (R187) -/
  | cpxImm (v : Byte)
  /-- E4 CPX z (R187) -/
  | cpxZp (z : Byte)
  /-- EC CPX a (R187) -/
  | cpxAbs (a : Word)
  /-- C0 CPY #v (R188) -/
  | cpyImm (v : Byte)
  /-- C4 CPY z (R188) -/
  | cpyZp (z : Byte)
  /-- CC CPY a (R188) -/
  | cpyAbs (a : Word)
  /-- 24 BIT z (R189) -/
  | bitZp (z : Byte)
  /-- 2C BIT a (R189) -/
  | bitAbs (a : Word)
  /-- E6 INC z (R190) -/
  | incZp (z : Byte)
  /-- F6 INC z,X (R190) -/
  | incZpx (z : Byte)
  /-- EE INC a (R190) -/
  | incAbs (a : Word)
  /-- FE INC a,X (R190) -/
  | incAbx (a : Word)
  /-- C6 DEC z (R191) -/
  | decZp (z : Byte)
  /-- D6 DEC z,X (R191) -/
  | decZpx (z : Byte)
  /-- CE DEC a (R191) -/
  | decAbs (a : Word)
  /-- DE DEC a,X (R191) -/
  | decAbx (a : Word)
  /-- E8 INX (R192) -/
  | inx
  /-- C8 INY (R193) -/
  | iny
  /-- CA DEX (R194) -/
  | dex
  /-- 88 DEY (R195) -/
  | dey
  /-- 0A ASL A (R211) -/
  | aslAcc
  /-- 06 ASL z (R211) -/
  | aslZp (z : Byte)
  /-- 16 ASL z,X (R211) -/
  | aslZpx (z : Byte)
  /-- 0E ASL a (R211) -/
  | aslAbs (a : Word)
  /-- 1E ASL a,X (R211) -/
  | aslAbx (a : Word)
  /-- 4A LSR A (R212) -/
  | lsrAcc
  /-- 46 LSR z (R212) -/
  | lsrZp (z : Byte)
  /-- 56 LSR z,X (R212) -/
  | lsrZpx (z : Byte)
  /-- 4E LSR a (R212) -/
  | lsrAbs (a : Word)
  /-- 5E LSR a,X (R212) -/
  | lsrAbx (a : Word)
  /-- 2A ROL A (R213) -/
  | rolAcc
  /-- 26 ROL z (R213) -/
  | rolZp (z : Byte)
  /-- 36 ROL z,X (R213) -/
  | rolZpx (z : Byte)
  /-- 2E ROL a (R213) -/
  | rolAbs (a : Word)
  /-- 3E ROL a,X (R213) -/
  | rolAbx (a : Word)
  /-- 6A ROR A (R214) -/
  | rorAcc
  /-- 66 ROR z (R214) -/
  | rorZp (z : Byte)
  /-- 76 ROR z,X (R214) -/
  | rorZpx (z : Byte)
  /-- 6E ROR a (R214) -/
  | rorAbs (a : Word)
  /-- 7E ROR a,X (R214) -/
  | rorAbx (a : Word)
  /-- 48 PHA (R220) -/
  | pha
  /-- 08 PHP (R221) -/
  | php
  /-- 68 PLA (R222) -/
  | pla
  /-- 28 PLP (R223) -/
  | plp
  /-- 4C JMP a (R230) -/
  | jmpAbs (a : Word)
  /-- 6C JMP (a) (R230) -/
  | jmpInd (a : Word)
  /-- 20 JSR a (R231) -/
  | jsrAbs (a : Word)
  /-- 60 RTS (R232) -/
  | rts
  /-- 90 BCC off (R234) -/
  | bcc (off : Byte)
  /-- B0 BCS off (R235) -/
  | bcs (off : Byte)
  /-- F0 BEQ off (R236) -/
  | beq (off : Byte)
  /-- 30 BMI off (R237) -/
  | bmi (off : Byte)
  /-- D0 BNE off (R238) -/
  | bne (off : Byte)
  /-- 10 BPL off (R239) -/
  | bpl (off : Byte)
  /-- 50 BVC off (R240) -/
  | bvc (off : Byte)
  /-- 70 BVS off (R241) -/
  | bvs (off : Byte)
  /-- 00 BRK (R242) -/
  | brk
  /-- 40 RTI (R243) -/
  | rti
  /-- 18 CLC (R260) -/
  | clc
  /-- D8 CLD (R261) -/
  | cld
  /-- 58 CLI (R262) -/
  | cli
  /-- B8 CLV (R263) -/
  | clv
  /-- 38 SEC (R264) -/
  | sec
  /-- F8 SED (R265) -/
  | sed
  /-- 78 SEI (R266) -/
  | sei
  /-- EA NOP (R267) -/
  | nop
  /-- An undefined opcode byte: the fatal decode error (R106, R300). -/
  | illegal (op : Byte)
  deriving DecidableEq, Repr

end Sys2Proof
end

