-- ==== Sys2Proof/Decode.lean ====
section
/-! DEFINITION. Decoding and encoding (30_encoding.md R100 to R107). The opcode byte alone selects the instruction, so the decoder
is R105's map of 256 cells: a cell says how many operand bytes follow and which instruction they make. -/

namespace Sys2Proof

/-- The 16-bit value `hi:lo` of two bytes (00_scope.md R7, 20_memory.md R71). -/
def wordOf (lo hi : Byte) : Word := hi ++ lo

/-- Bits 7..0 of a 16-bit value. -/
def lowByte (a : Word) : Byte := a.setWidth 8

/-- Bits 15..8 of a 16-bit value; two addresses are in one page when these agree (00_scope.md R13). -/
def highByte (a : Word) : Byte := (a >>> 8).setWidth 8

/-- One cell of the opcode map: what follows the opcode byte. `padded` is BRK, whose second byte is not read (R101). -/
inductive Shape where
  | undefined
  | implied (i : Instr)
  | padded (i : Instr)
  | byte (f : Byte → Instr)
  | word (f : Word → Instr)

/-- Row 0x of the opcode map (30_encoding.md R105). -/
def opcodeRow0 : List Shape :=
  [.padded .brk, .byte .oraIzx, .undefined, .undefined,
   .undefined, .byte .oraZp, .byte .aslZp, .undefined,
   .implied .php, .byte .oraImm, .implied .aslAcc, .undefined,
   .undefined, .word .oraAbs, .word .aslAbs, .undefined]

/-- Row 1x of the opcode map (30_encoding.md R105). -/
def opcodeRow1 : List Shape :=
  [.byte .bpl, .byte .oraIzy, .undefined, .undefined,
   .undefined, .byte .oraZpx, .byte .aslZpx, .undefined,
   .implied .clc, .word .oraAby, .undefined, .undefined,
   .undefined, .word .oraAbx, .word .aslAbx, .undefined]

/-- Row 2x of the opcode map (30_encoding.md R105). -/
def opcodeRow2 : List Shape :=
  [.word .jsrAbs, .byte .andIzx, .undefined, .undefined,
   .byte .bitZp, .byte .andZp, .byte .rolZp, .undefined,
   .implied .plp, .byte .andImm, .implied .rolAcc, .undefined,
   .word .bitAbs, .word .andAbs, .word .rolAbs, .undefined]

/-- Row 3x of the opcode map (30_encoding.md R105). -/
def opcodeRow3 : List Shape :=
  [.byte .bmi, .byte .andIzy, .undefined, .undefined,
   .undefined, .byte .andZpx, .byte .rolZpx, .undefined,
   .implied .sec, .word .andAby, .undefined, .undefined,
   .undefined, .word .andAbx, .word .rolAbx, .undefined]

/-- Row 4x of the opcode map (30_encoding.md R105). -/
def opcodeRow4 : List Shape :=
  [.implied .rti, .byte .eorIzx, .undefined, .undefined,
   .undefined, .byte .eorZp, .byte .lsrZp, .undefined,
   .implied .pha, .byte .eorImm, .implied .lsrAcc, .undefined,
   .word .jmpAbs, .word .eorAbs, .word .lsrAbs, .undefined]

/-- Row 5x of the opcode map (30_encoding.md R105). -/
def opcodeRow5 : List Shape :=
  [.byte .bvc, .byte .eorIzy, .undefined, .undefined,
   .undefined, .byte .eorZpx, .byte .lsrZpx, .undefined,
   .implied .cli, .word .eorAby, .undefined, .undefined,
   .undefined, .word .eorAbx, .word .lsrAbx, .undefined]

/-- Row 6x of the opcode map (30_encoding.md R105). -/
def opcodeRow6 : List Shape :=
  [.implied .rts, .byte .adcIzx, .undefined, .undefined,
   .undefined, .byte .adcZp, .byte .rorZp, .undefined,
   .implied .pla, .byte .adcImm, .implied .rorAcc, .undefined,
   .word .jmpInd, .word .adcAbs, .word .rorAbs, .undefined]

/-- Row 7x of the opcode map (30_encoding.md R105). -/
def opcodeRow7 : List Shape :=
  [.byte .bvs, .byte .adcIzy, .undefined, .undefined,
   .undefined, .byte .adcZpx, .byte .rorZpx, .undefined,
   .implied .sei, .word .adcAby, .undefined, .undefined,
   .undefined, .word .adcAbx, .word .rorAbx, .undefined]

/-- Row 8x of the opcode map (30_encoding.md R105). -/
def opcodeRow8 : List Shape :=
  [.undefined, .byte .staIzx, .undefined, .undefined,
   .byte .styZp, .byte .staZp, .byte .stxZp, .undefined,
   .implied .dey, .undefined, .implied .txa, .undefined,
   .word .styAbs, .word .staAbs, .word .stxAbs, .undefined]

/-- Row 9x of the opcode map (30_encoding.md R105). -/
def opcodeRow9 : List Shape :=
  [.byte .bcc, .byte .staIzy, .undefined, .undefined,
   .byte .styZpx, .byte .staZpx, .byte .stxZpy, .undefined,
   .implied .tya, .word .staAby, .implied .txs, .undefined,
   .undefined, .word .staAbx, .undefined, .undefined]

/-- Row Ax of the opcode map (30_encoding.md R105). -/
def opcodeRowA : List Shape :=
  [.byte .ldyImm, .byte .ldaIzx, .byte .ldxImm, .undefined,
   .byte .ldyZp, .byte .ldaZp, .byte .ldxZp, .undefined,
   .implied .tay, .byte .ldaImm, .implied .tax, .undefined,
   .word .ldyAbs, .word .ldaAbs, .word .ldxAbs, .undefined]

/-- Row Bx of the opcode map (30_encoding.md R105). -/
def opcodeRowB : List Shape :=
  [.byte .bcs, .byte .ldaIzy, .undefined, .undefined,
   .byte .ldyZpx, .byte .ldaZpx, .byte .ldxZpy, .undefined,
   .implied .clv, .word .ldaAby, .implied .tsx, .undefined,
   .word .ldyAbx, .word .ldaAbx, .word .ldxAby, .undefined]

/-- Row Cx of the opcode map (30_encoding.md R105). -/
def opcodeRowC : List Shape :=
  [.byte .cpyImm, .byte .cmpIzx, .undefined, .undefined,
   .byte .cpyZp, .byte .cmpZp, .byte .decZp, .undefined,
   .implied .iny, .byte .cmpImm, .implied .dex, .undefined,
   .word .cpyAbs, .word .cmpAbs, .word .decAbs, .undefined]

/-- Row Dx of the opcode map (30_encoding.md R105). -/
def opcodeRowD : List Shape :=
  [.byte .bne, .byte .cmpIzy, .undefined, .undefined,
   .undefined, .byte .cmpZpx, .byte .decZpx, .undefined,
   .implied .cld, .word .cmpAby, .undefined, .undefined,
   .undefined, .word .cmpAbx, .word .decAbx, .undefined]

/-- Row Ex of the opcode map (30_encoding.md R105). -/
def opcodeRowE : List Shape :=
  [.byte .cpxImm, .byte .sbcIzx, .undefined, .undefined,
   .byte .cpxZp, .byte .sbcZp, .byte .incZp, .undefined,
   .implied .inx, .byte .sbcImm, .implied .nop, .undefined,
   .word .cpxAbs, .word .sbcAbs, .word .incAbs, .undefined]

/-- Row Fx of the opcode map (30_encoding.md R105). -/
def opcodeRowF : List Shape :=
  [.byte .beq, .byte .sbcIzy, .undefined, .undefined,
   .undefined, .byte .sbcZpx, .byte .incZpx, .undefined,
   .implied .sed, .word .sbcAby, .undefined, .undefined,
   .undefined, .word .sbcAbx, .word .incAbx, .undefined]

/-- The opcode map, row = high nibble, column = low nibble (30_encoding.md R105). -/
def opcodeMap : List (List Shape) :=
  [opcodeRow0, opcodeRow1, opcodeRow2, opcodeRow3, opcodeRow4, opcodeRow5, opcodeRow6, opcodeRow7,
   opcodeRow8, opcodeRow9, opcodeRowA, opcodeRowB, opcodeRowC, opcodeRowD, opcodeRowE, opcodeRowF]

/-- The cell of an opcode byte. -/
def opcodeShape (op : Byte) : Shape :=
  (opcodeMap.getD (op.toNat / 16) []).getD (op.toNat % 16) .undefined

/-- The instruction that an opcode byte and the two bytes after it make; bytes past its length are not looked at. -/
def decodeBytes (op b1 b2 : Byte) : Instr :=
  match opcodeShape op with
  | .undefined => .illegal op
  | .implied i => i
  | .padded i => i
  | .byte f => f b1
  | .word f => f (wordOf b1 b2)

/-- Why a list of bytes is no instruction: there is no opcode byte, or the operand bytes of `op` are missing. -/
inductive DecodeError where
  | noOpcode
  | truncated (op : Byte)
  deriving DecidableEq, Repr

/-- Decode the first instruction of a list of bytes and give the bytes after it. Every opcode byte decodes: an undefined one to
`illegal` (R106, R107). BRK occupies two bytes and its second one is skipped whatever it is (R101). A list that ends in a lone $00,
BRK without its padding byte, is rejected as truncated (DESIGN CHOICE, log 10); the fetch of a running machine never reads that byte
and runs such a BRK. -/
def decode : List Byte → Except DecodeError (Instr × List Byte)
  | [] => .error .noOpcode
  | op :: rest =>
    match opcodeShape op, rest with
    | .undefined, rest => .ok (.illegal op, rest)
    | .implied i, rest => .ok (i, rest)
    | .padded i, _ :: rest => .ok (i, rest)
    | .byte f, b1 :: rest => .ok (f b1, rest)
    | .word f, b1 :: b2 :: rest => .ok (f (wordOf b1 b2), rest)
    | _, _ => .error (.truncated op)

/-- The bytes of an instruction (30_encoding.md R104). BRK's padding byte, which no CPU reads, is written as 0 (DESIGN CHOICE,
log 10). -/
def encode : Instr → List Byte
  | .ldaImm v => [0xA9, v]
  | .ldaZp z => [0xA5, z]
  | .ldaZpx z => [0xB5, z]
  | .ldaAbs a => [0xAD, lowByte a, highByte a]
  | .ldaAbx a => [0xBD, lowByte a, highByte a]
  | .ldaAby a => [0xB9, lowByte a, highByte a]
  | .ldaIzx z => [0xA1, z]
  | .ldaIzy z => [0xB1, z]
  | .ldxImm v => [0xA2, v]
  | .ldxZp z => [0xA6, z]
  | .ldxZpy z => [0xB6, z]
  | .ldxAbs a => [0xAE, lowByte a, highByte a]
  | .ldxAby a => [0xBE, lowByte a, highByte a]
  | .ldyImm v => [0xA0, v]
  | .ldyZp z => [0xA4, z]
  | .ldyZpx z => [0xB4, z]
  | .ldyAbs a => [0xAC, lowByte a, highByte a]
  | .ldyAbx a => [0xBC, lowByte a, highByte a]
  | .staZp z => [0x85, z]
  | .staZpx z => [0x95, z]
  | .staAbs a => [0x8D, lowByte a, highByte a]
  | .staAbx a => [0x9D, lowByte a, highByte a]
  | .staAby a => [0x99, lowByte a, highByte a]
  | .staIzx z => [0x81, z]
  | .staIzy z => [0x91, z]
  | .stxZp z => [0x86, z]
  | .stxZpy z => [0x96, z]
  | .stxAbs a => [0x8E, lowByte a, highByte a]
  | .styZp z => [0x84, z]
  | .styZpx z => [0x94, z]
  | .styAbs a => [0x8C, lowByte a, highByte a]
  | .tax => [0xAA]
  | .tay => [0xA8]
  | .txa => [0x8A]
  | .tya => [0x98]
  | .tsx => [0xBA]
  | .txs => [0x9A]
  | .adcImm v => [0x69, v]
  | .adcZp z => [0x65, z]
  | .adcZpx z => [0x75, z]
  | .adcAbs a => [0x6D, lowByte a, highByte a]
  | .adcAbx a => [0x7D, lowByte a, highByte a]
  | .adcAby a => [0x79, lowByte a, highByte a]
  | .adcIzx z => [0x61, z]
  | .adcIzy z => [0x71, z]
  | .sbcImm v => [0xE9, v]
  | .sbcZp z => [0xE5, z]
  | .sbcZpx z => [0xF5, z]
  | .sbcAbs a => [0xED, lowByte a, highByte a]
  | .sbcAbx a => [0xFD, lowByte a, highByte a]
  | .sbcAby a => [0xF9, lowByte a, highByte a]
  | .sbcIzx z => [0xE1, z]
  | .sbcIzy z => [0xF1, z]
  | .andImm v => [0x29, v]
  | .andZp z => [0x25, z]
  | .andZpx z => [0x35, z]
  | .andAbs a => [0x2D, lowByte a, highByte a]
  | .andAbx a => [0x3D, lowByte a, highByte a]
  | .andAby a => [0x39, lowByte a, highByte a]
  | .andIzx z => [0x21, z]
  | .andIzy z => [0x31, z]
  | .oraImm v => [0x09, v]
  | .oraZp z => [0x05, z]
  | .oraZpx z => [0x15, z]
  | .oraAbs a => [0x0D, lowByte a, highByte a]
  | .oraAbx a => [0x1D, lowByte a, highByte a]
  | .oraAby a => [0x19, lowByte a, highByte a]
  | .oraIzx z => [0x01, z]
  | .oraIzy z => [0x11, z]
  | .eorImm v => [0x49, v]
  | .eorZp z => [0x45, z]
  | .eorZpx z => [0x55, z]
  | .eorAbs a => [0x4D, lowByte a, highByte a]
  | .eorAbx a => [0x5D, lowByte a, highByte a]
  | .eorAby a => [0x59, lowByte a, highByte a]
  | .eorIzx z => [0x41, z]
  | .eorIzy z => [0x51, z]
  | .cmpImm v => [0xC9, v]
  | .cmpZp z => [0xC5, z]
  | .cmpZpx z => [0xD5, z]
  | .cmpAbs a => [0xCD, lowByte a, highByte a]
  | .cmpAbx a => [0xDD, lowByte a, highByte a]
  | .cmpAby a => [0xD9, lowByte a, highByte a]
  | .cmpIzx z => [0xC1, z]
  | .cmpIzy z => [0xD1, z]
  | .cpxImm v => [0xE0, v]
  | .cpxZp z => [0xE4, z]
  | .cpxAbs a => [0xEC, lowByte a, highByte a]
  | .cpyImm v => [0xC0, v]
  | .cpyZp z => [0xC4, z]
  | .cpyAbs a => [0xCC, lowByte a, highByte a]
  | .bitZp z => [0x24, z]
  | .bitAbs a => [0x2C, lowByte a, highByte a]
  | .incZp z => [0xE6, z]
  | .incZpx z => [0xF6, z]
  | .incAbs a => [0xEE, lowByte a, highByte a]
  | .incAbx a => [0xFE, lowByte a, highByte a]
  | .decZp z => [0xC6, z]
  | .decZpx z => [0xD6, z]
  | .decAbs a => [0xCE, lowByte a, highByte a]
  | .decAbx a => [0xDE, lowByte a, highByte a]
  | .inx => [0xE8]
  | .iny => [0xC8]
  | .dex => [0xCA]
  | .dey => [0x88]
  | .aslAcc => [0x0A]
  | .aslZp z => [0x06, z]
  | .aslZpx z => [0x16, z]
  | .aslAbs a => [0x0E, lowByte a, highByte a]
  | .aslAbx a => [0x1E, lowByte a, highByte a]
  | .lsrAcc => [0x4A]
  | .lsrZp z => [0x46, z]
  | .lsrZpx z => [0x56, z]
  | .lsrAbs a => [0x4E, lowByte a, highByte a]
  | .lsrAbx a => [0x5E, lowByte a, highByte a]
  | .rolAcc => [0x2A]
  | .rolZp z => [0x26, z]
  | .rolZpx z => [0x36, z]
  | .rolAbs a => [0x2E, lowByte a, highByte a]
  | .rolAbx a => [0x3E, lowByte a, highByte a]
  | .rorAcc => [0x6A]
  | .rorZp z => [0x66, z]
  | .rorZpx z => [0x76, z]
  | .rorAbs a => [0x6E, lowByte a, highByte a]
  | .rorAbx a => [0x7E, lowByte a, highByte a]
  | .pha => [0x48]
  | .php => [0x08]
  | .pla => [0x68]
  | .plp => [0x28]
  | .jmpAbs a => [0x4C, lowByte a, highByte a]
  | .jmpInd a => [0x6C, lowByte a, highByte a]
  | .jsrAbs a => [0x20, lowByte a, highByte a]
  | .rts => [0x60]
  | .bcc off => [0x90, off]
  | .bcs off => [0xB0, off]
  | .beq off => [0xF0, off]
  | .bmi off => [0x30, off]
  | .bne off => [0xD0, off]
  | .bpl off => [0x10, off]
  | .bvc off => [0x50, off]
  | .bvs off => [0x70, off]
  | .brk => [0x00, 0x00]
  | .rti => [0x40]
  | .clc => [0x18]
  | .cld => [0xD8]
  | .cli => [0x58]
  | .clv => [0xB8]
  | .sec => [0x38]
  | .sed => [0xF8]
  | .sei => [0x78]
  | .nop => [0xEA]
  | .illegal op => [op]

/-- The mnemonic of an instruction (30_encoding.md R104). -/
def Instr.mnemonic : Instr → Mnemonic
  | .ldaImm _ | .ldaZp _ | .ldaZpx _ | .ldaAbs _ | .ldaAbx _ | .ldaAby _ | .ldaIzx _ | .ldaIzy _ => .lda
  | .ldxImm _ | .ldxZp _ | .ldxZpy _ | .ldxAbs _ | .ldxAby _ => .ldx
  | .ldyImm _ | .ldyZp _ | .ldyZpx _ | .ldyAbs _ | .ldyAbx _ => .ldy
  | .staZp _ | .staZpx _ | .staAbs _ | .staAbx _ | .staAby _ | .staIzx _ | .staIzy _ => .sta
  | .stxZp _ | .stxZpy _ | .stxAbs _ => .stx
  | .styZp _ | .styZpx _ | .styAbs _ => .sty
  | .tax => .tax
  | .tay => .tay
  | .txa => .txa
  | .tya => .tya
  | .tsx => .tsx
  | .txs => .txs
  | .adcImm _ | .adcZp _ | .adcZpx _ | .adcAbs _ | .adcAbx _ | .adcAby _ | .adcIzx _ | .adcIzy _ => .adc
  | .sbcImm _ | .sbcZp _ | .sbcZpx _ | .sbcAbs _ | .sbcAbx _ | .sbcAby _ | .sbcIzx _ | .sbcIzy _ => .sbc
  | .andImm _ | .andZp _ | .andZpx _ | .andAbs _ | .andAbx _ | .andAby _ | .andIzx _ | .andIzy _ => .and
  | .oraImm _ | .oraZp _ | .oraZpx _ | .oraAbs _ | .oraAbx _ | .oraAby _ | .oraIzx _ | .oraIzy _ => .ora
  | .eorImm _ | .eorZp _ | .eorZpx _ | .eorAbs _ | .eorAbx _ | .eorAby _ | .eorIzx _ | .eorIzy _ => .eor
  | .cmpImm _ | .cmpZp _ | .cmpZpx _ | .cmpAbs _ | .cmpAbx _ | .cmpAby _ | .cmpIzx _ | .cmpIzy _ => .cmp
  | .cpxImm _ | .cpxZp _ | .cpxAbs _ => .cpx
  | .cpyImm _ | .cpyZp _ | .cpyAbs _ => .cpy
  | .bitZp _ | .bitAbs _ => .bit
  | .incZp _ | .incZpx _ | .incAbs _ | .incAbx _ => .inc
  | .decZp _ | .decZpx _ | .decAbs _ | .decAbx _ => .dec
  | .inx => .inx
  | .iny => .iny
  | .dex => .dex
  | .dey => .dey
  | .aslAcc | .aslZp _ | .aslZpx _ | .aslAbs _ | .aslAbx _ => .asl
  | .lsrAcc | .lsrZp _ | .lsrZpx _ | .lsrAbs _ | .lsrAbx _ => .lsr
  | .rolAcc | .rolZp _ | .rolZpx _ | .rolAbs _ | .rolAbx _ => .rol
  | .rorAcc | .rorZp _ | .rorZpx _ | .rorAbs _ | .rorAbx _ => .ror
  | .pha => .pha
  | .php => .php
  | .pla => .pla
  | .plp => .plp
  | .jmpAbs _ | .jmpInd _ => .jmp
  | .jsrAbs _ => .jsr
  | .rts => .rts
  | .bcc _ => .bcc
  | .bcs _ => .bcs
  | .beq _ => .beq
  | .bmi _ => .bmi
  | .bne _ => .bne
  | .bpl _ => .bpl
  | .bvc _ => .bvc
  | .bvs _ => .bvs
  | .brk => .brk
  | .rti => .rti
  | .clc => .clc
  | .cld => .cld
  | .cli => .cli
  | .clv => .clv
  | .sec => .sec
  | .sed => .sed
  | .sei => .sei
  | .nop => .nop
  | .illegal _ => .illegal

/-- The operand form of an instruction (40_addressing.md R130). -/
def Instr.mode : Instr → Mode
  | .ldaImm _ | .ldxImm _ | .ldyImm _ | .adcImm _ | .sbcImm _ | .andImm _ | .oraImm _ | .eorImm _ | .cmpImm _
    | .cpxImm _ | .cpyImm _ => .imm
  | .ldaZp _ | .ldxZp _ | .ldyZp _ | .staZp _ | .stxZp _ | .styZp _ | .adcZp _ | .sbcZp _ | .andZp _
    | .oraZp _ | .eorZp _ | .cmpZp _ | .cpxZp _ | .cpyZp _ | .bitZp _ | .incZp _ | .decZp _ | .aslZp _
    | .lsrZp _ | .rolZp _ | .rorZp _ => .zp
  | .ldaZpx _ | .ldyZpx _ | .staZpx _ | .styZpx _ | .adcZpx _ | .sbcZpx _ | .andZpx _ | .oraZpx _ | .eorZpx _
    | .cmpZpx _ | .incZpx _ | .decZpx _ | .aslZpx _ | .lsrZpx _ | .rolZpx _ | .rorZpx _ => .zpx
  | .ldaAbs _ | .ldxAbs _ | .ldyAbs _ | .staAbs _ | .stxAbs _ | .styAbs _ | .adcAbs _ | .sbcAbs _ | .andAbs _
    | .oraAbs _ | .eorAbs _ | .cmpAbs _ | .cpxAbs _ | .cpyAbs _ | .bitAbs _ | .incAbs _ | .decAbs _
    | .aslAbs _ | .lsrAbs _ | .rolAbs _ | .rorAbs _ | .jmpAbs _ | .jsrAbs _ => .abs
  | .ldaAbx _ | .ldyAbx _ | .staAbx _ | .adcAbx _ | .sbcAbx _ | .andAbx _ | .oraAbx _ | .eorAbx _ | .cmpAbx _
    | .incAbx _ | .decAbx _ | .aslAbx _ | .lsrAbx _ | .rolAbx _ | .rorAbx _ => .abx
  | .ldaAby _ | .ldxAby _ | .staAby _ | .adcAby _ | .sbcAby _ | .andAby _ | .oraAby _ | .eorAby _ | .cmpAby _ => .aby
  | .ldaIzx _ | .staIzx _ | .adcIzx _ | .sbcIzx _ | .andIzx _ | .oraIzx _ | .eorIzx _ | .cmpIzx _ => .izx
  | .ldaIzy _ | .staIzy _ | .adcIzy _ | .sbcIzy _ | .andIzy _ | .oraIzy _ | .eorIzy _ | .cmpIzy _ => .izy
  | .ldxZpy _ | .stxZpy _ => .zpy
  | .tax | .tay | .txa | .tya | .tsx | .txs | .inx | .iny | .dex | .dey | .pha | .php | .pla | .plp | .rts
    | .brk | .rti | .clc | .cld | .cli | .clv | .sec | .sed | .sei | .nop => .imp
  | .aslAcc | .lsrAcc | .rolAcc | .rorAcc => .acc
  | .jmpInd _ => .ind
  | .bcc _ | .bcs _ | .beq _ | .bmi _ | .bne _ | .bpl _ | .bvc _ | .bvs _ => .rel
  | .illegal _ => .none

/-- The length of an operand form in bytes (30_encoding.md R101). -/
def Mode.length : Mode → Nat
  | .imp | .acc | .none => 1
  | .imm | .zp | .zpx | .zpy | .izx | .izy | .rel => 2
  | .abs | .abx | .aby | .ind => 3

/-- The length of an instruction: that of its form, but 2 for BRK (30_encoding.md R101). -/
def Instr.length (i : Instr) : Nat :=
  if i = .brk then 2 else i.mode.length

/-- Byte `k` of a number, counted from the least significant byte. -/
def byteAt (w k : Nat) : Byte := BitVec.ofNat 8 (w / 256 ^ k)

/-- The instruction read from a table word: byte 0 is the opcode byte, and the bits at and above `nbits` are 0. -/
def decodeTableWord (nbits w : Nat) : Option Instr :=
  let v := w % 2 ^ nbits
  match decode [byteAt v 0, byteAt v 1, byteAt v 2] with
  | .ok (i, _) => some i
  | .error _ => none

end Sys2Proof
end

