-- ==== Sys2Proof/Config.lean ====
section
/-! DEFINITION. What the spec leaves open, as constants with no value, and the fixed addresses of the platform. -/

namespace Sys2Proof

/-- Free value: the byte that open-bus read number `n` of address `a` returns, the draw `Open(addr)` of 00_scope.md R6
(93_implementation_defined.md U2; log 2). -/
opaque Config.openBus (n : Nat) (a : Word) : Byte

/-- Free value: whether the pixel pipeline records a sprite-zero hit on PPU dot number `n` (60_exceptions.md R346; log 3). -/
opaque Config.spriteZeroDraw (n : Nat) : Bool

/-- Free value: whether sprite evaluation flags an overflow on PPU dot number `n` (60_exceptions.md R346; log 3). -/
opaque Config.overflowDraw (n : Nat) : Bool

/-- The open parameter `WARMUP_CYCLES` (60_exceptions.md R340, 92_eei_decisions.md D24; log 4). -/
opaque Config.warmupCycles : Nat

/-- The NMI vector (20_memory.md R68). -/
def Config.nmiVector : Word := 0xFFFA

/-- The reset vector (20_memory.md R68). -/
def Config.resetVector : Word := 0xFFFC

/-- The vector of IRQ and BRK (20_memory.md R68). -/
def Config.irqVector : Word := 0xFFFE

end Sys2Proof
end

