-- ==== Sys2Proof/Machine/State.lean ====
section
/-! DEFINITION. The state of the machine as plain data, the ways a step can stop, and the state after reset. The field comments
give the rule of spec/ that names each piece of state. -/

namespace Sys2Proof.Machine

/-- A memory: (address, byte) pairs. An address that is not listed reads as 0. -/
abbrev Memory := List Host.Cell

/-- The canonical form: addresses strictly rising, and no pair listed whose byte is 0, so that equal memories are equal lists. -/
abbrev Memory.wf (m : Memory) : Prop :=
  m.Pairwise (fun c d => c.1 < d.1) ∧ ∀ c ∈ m, c.2 ≠ 0

/-- Every listed address is below `n`, the size of the memory. -/
abbrev Memory.within (n : Nat) (m : Memory) : Prop :=
  ∀ c ∈ m, c.1 < n

/-- The seven status flags (10_state.md R35 to R43). Bit 5 of the packed byte is not stored. -/
structure Status where
  n : Bool
  v : Bool
  b : Bool
  d : Bool
  i : Bool
  z : Bool
  c : Bool
  deriving DecidableEq, Repr

/-- The PPU as the CPU sees it (60_exceptions.md R330, R339, R341). -/
structure Ppu where
  /-- control port (R334) -/
  ctrl : Byte
  /-- mask port (R335) -/
  mask : Byte
  /-- status flag, bit 7 of the status port (R333, R344) -/
  vblank : Bool
  /-- status flag, bit 6 (R333, R346) -/
  sprite0Hit : Bool
  /-- status flag, bit 5 (R333, R346) -/
  spriteOverflow : Bool
  /-- OAM address port (R335) -/
  oamAddr : Byte
  /-- internal VRAM address (R330, R337) -/
  v : BitVec 15
  /-- temporary VRAM address (R330, R336) -/
  t : BitVec 15
  /-- fine X scroll (R336) -/
  fineX : BitVec 3
  /-- write-toggle latch (R336, R337) -/
  w : Bool
  /-- the data port's read buffer (R338) -/
  readBuffer : Byte
  /-- scanline, 0 to 261 (R341) -/
  scanline : Nat
  /-- dot, 0 to 340 (R341) -/
  dot : Nat
  /-- frame number (R341) -/
  frame : Nat
  /-- the frame-complete flag the driver reads and clears (R343) -/
  frameComplete : Bool
  /-- 2 KiB of nametable memory (R339) -/
  vram : Memory
  /-- 32 bytes of palette RAM (R339) -/
  palette : Memory
  /-- 256 bytes of object attribute memory (R335) -/
  oam : Memory
  deriving DecidableEq, Repr

/-- The two controllers (60_exceptions.md R364). -/
structure Controllers where
  /-- `controller_state[0]`, the host's input -/
  pad0 : Byte
  /-- `controller_state[1]`, the host's input -/
  pad1 : Byte
  /-- the strobe bit -/
  strobe : Bool
  /-- `shift[0]` -/
  shift0 : Byte
  /-- `shift[1]` -/
  shift1 : Byte
  deriving DecidableEq, Repr

/-- The two sizes of program ROM the baseline mapper maps (20_memory.md R66, R80). -/
inductive PrgSize where
  | banks1
  | banks2
  deriving DecidableEq, Repr

/-- What holds the pattern data: ROM with a bank count, or 8 KiB of writable RAM (20_memory.md R81). -/
inductive PatternKind where
  | rom (banks : Nat)
  | ram
  deriving DecidableEq, Repr

/-- The nametable layout (20_memory.md R81, 60_exceptions.md R339). -/
inductive Mirroring where
  | horizontal
  | vertical
  deriving DecidableEq, Repr

/-- The loaded cartridge (20_memory.md R66, R79, R81). Memories are indexed by their own offsets, from 0. -/
structure Cartridge where
  prgSize : PrgSize
  prg : Memory
  pattern : PatternKind
  chr : Memory
  mirroring : Mirroring
  deriving DecidableEq, Repr

/-- The machine (10_state.md R30, 20_memory.md R60, 60_exceptions.md R330, R360). -/
structure State where
  /-- accumulator (10_state.md R31) -/
  a : Byte
  /-- index register X (R32) -/
  x : Byte
  /-- index register Y (R33) -/
  y : Byte
  /-- stack pointer (R45) -/
  sp : Byte
  /-- program counter (R44) -/
  pc : Word
  /-- status flags (R35) -/
  p : Status
  /-- cycles left of the instruction in flight; 0 is an instruction boundary (R46) -/
  cyclesRemaining : Nat
  /-- the NMI line's pending flag (R47) -/
  nmiPending : Bool
  /-- the maskable interrupt line, an input (R48) -/
  irqLine : Bool
  /-- the session is halted by a fatal decode error (R49) -/
  halted : Bool
  /-- the address and opcode byte of the fatal decode error (R49) -/
  fault : Option (Word × Byte)
  /-- CPU cycles since the last reset (R50) -/
  cyclesTotal : Nat
  /-- idle cycles an OAM DMA adds after the writing instruction (60_exceptions.md R363) -/
  dmaStall : Nat
  /-- 2 KiB of internal RAM (20_memory.md R65) -/
  ram : Memory
  /-- the PPU (60_exceptions.md R330) -/
  ppu : Ppu
  /-- the controllers (60_exceptions.md R364) -/
  pads : Controllers
  /-- the cartridge (20_memory.md R79) -/
  cart : Cartridge
  /-- the parameter `WARMUP_CYCLES` (60_exceptions.md R340; log 4) -/
  warmupCycles : Nat
  /-- the model's own count of open-bus draws (log 2) -/
  openDraws : Nat
  /-- the model's own count of sprite-flag draws (log 3) -/
  dotDraws : Nat
  deriving DecidableEq, Repr

/-- Why the machine has stopped. -/
inductive Fault where
  /-- Raised by a step of a halted machine: the session ended with the fatal decode error at this address on this opcode byte, and
  no later step runs in it (60_exceptions.md R300, 93_implementation_defined.md U1, U11). Safe: it is the spec's own stop (log 8). -/
  | illegalOpcode (record : Option (Word × Byte))
  deriving DecidableEq, Repr

/-- Why a step has no meaning. -/
inductive Refusal where
  /-- Raised by exec for an instruction with no meaning yet. Safe. -/
  | notModelled (mnemonic : String)
  /-- Raised by an access to PPU port 4 or 7 while rendering is enabled on scanlines 0-239 or 261: the spec gives it no meaning and
  says that a model refuses it (60_exceptions.md R335, R338, 93_implementation_defined.md U4). Safe (log 9). -/
  | portWhileRendering (port : Nat)
  deriving DecidableEq, Repr

/-- The PPU after a cold reset (60_exceptions.md R348). -/
def Ppu.reset : Ppu :=
  { ctrl := 0, mask := 0, vblank := false, sprite0Hit := false, spriteOverflow := false, oamAddr := 0, v := 0, t := 0, fineX := 0,
    w := false, readBuffer := 0, scanline := 0, dot := 0, frame := 0, frameComplete := false, vram := [], palette := [], oam := [] }

/-- The cartridge of `State.reset`: one bank of program ROM holding zeros, pattern RAM, horizontal mirroring (DESIGN CHOICE, log 6). -/
def Cartridge.blank : Cartridge :=
  { prgSize := .banks1, prg := [], pattern := .ram, chr := [], mirroring := .horizontal }

/-- The machine right after a cold reset with the blank cartridge (10_state.md R52, 70_reset_and_hazards.md R400). The reset vector
of the blank program ROM reads $0000. -/
def State.reset : State :=
  { a := 0x00, x := 0x00, y := 0x00, sp := 0xFD, pc := 0x0000,
    p := { n := false, v := false, b := false, d := false, i := true, z := false, c := false },
    cyclesRemaining := 0, nmiPending := false, irqLine := false, halted := false, fault := none, cyclesTotal := 0, dmaStall := 0,
    ram := [], ppu := Ppu.reset, pads := { pad0 := 0, pad1 := 0, strobe := false, shift0 := 0, shift1 := 0 },
    cart := Cartridge.blank, warmupCycles := Config.warmupCycles, openDraws := 0, dotDraws := 0 }

end Sys2Proof.Machine
end

