-- ==== Sys2Proof/Machine/Memory.lean ====
section
/-! DEFINITION. Reading and writing one byte of a memory in canonical form. -/

namespace Sys2Proof.Machine

/-- The byte at an address: the listed one, else 0 (20_memory.md R65; log 6 for program and pattern ROM). -/
def Memory.get : Memory → Nat → Byte
  | [], _ => 0
  | (b, w) :: rest, a => if a = b then w else Memory.get rest a

/-- Put a byte in front of a memory all of whose addresses are higher, or nothing when the byte is 0. -/
def Memory.cons (a : Nat) (v : Byte) (m : Memory) : Memory :=
  if v = 0 then m else (a, v) :: m

/-- Write a byte and keep the canonical form: a 0 is taken out of the list. -/
def Memory.set : Memory → Nat → Byte → Memory
  | [], a, v => Memory.cons a v []
  | (b, w) :: rest, a, v =>
    if a < b then Memory.cons a v ((b, w) :: rest)
    else if a = b then Memory.cons a v rest
    else (b, w) :: Memory.set rest a v

/-- The memory that holds a list of bytes from address `a` up. -/
def Memory.ofBytes : List Byte → Nat → Memory
  | [], _ => []
  | v :: rest, a => Memory.cons a v (Memory.ofBytes rest (a + 1))

end Sys2Proof.Machine
end

