-- ==== Sys2Proof/Machine/Ppu.lean ====
section
/-! DEFINITION. The PPU as the CPU sees it: its memory, its eight ports and its dot sequencer (60_exceptions.md R330 to R348). -/

namespace Sys2Proof.Machine

/-- The draw `Open(a)`: a free value and the count of draws advanced (00_scope.md R6; log 2). -/
def drawOpen (a : Word) (s : State) : Byte × State :=
  (Config.openBus s.openDraws a, { s with openDraws := s.openDraws + 1 })

/-- The state with another PPU. -/
def State.withPpu (s : State) (p : Ppu) : State := { s with ppu := p }

/-- Rendering is enabled and the PPU is on a visible or the pre-render scanline (R338, 93_implementation_defined.md U4). -/
def Ppu.rendering (p : Ppu) : Bool :=
  (p.mask.getLsbD 3 || p.mask.getLsbD 4) && (decide (p.scanline ≤ 239) || p.scanline == 261)

/-- The VRAM index of a nametable address; $3000-$3EFF is the same as $1000 lower (R339). -/
def nametableIndex (m : Mirroring) (a : Nat) : Nat :=
  match m with
  | .horizontal => a / 0x400 % 4 / 2 * 0x400 + a % 0x400
  | .vertical => a / 0x400 % 4 % 2 * 0x400 + a % 0x400

/-- The palette index: $10, $14, $18, $1C alias $00, $04, $08, $0C (R339). -/
def paletteIndex (a : Nat) : Nat :=
  if 0x10 ≤ a % 0x20 ∧ a % 4 = 0 then a % 0x20 - 0x10 else a % 0x20

/-- The length of the pattern data in bytes (20_memory.md R79, R81). -/
def PatternKind.length : PatternKind → Nat
  | .rom banks => 8192 * banks
  | .ram => 8192

/-- `PpuMemRead(a)` for a 14-bit address (R339). -/
def ppuMemRead (a : Nat) (s : State) : Byte :=
  if a < 0x2000 then s.cart.chr.get (a % s.cart.pattern.length)
  else if a < 0x3F00 then s.ppu.vram.get (nametableIndex s.cart.mirroring a)
  else s.ppu.palette.get (paletteIndex a)

/-- `PpuMemWrite(a, d)` for a 14-bit address; a write to pattern ROM is ignored (R339). -/
def ppuMemWrite (a : Nat) (d : Byte) (s : State) : State :=
  if a < 0x2000 then
    match s.cart.pattern with
    | .rom _ => s
    | .ram => { s with cart := { s.cart with chr := s.cart.chr.set (a % s.cart.pattern.length) d } }
  else if a < 0x3F00 then
    s.withPpu { s.ppu with vram := s.ppu.vram.set (nametableIndex s.cart.mirroring a) d }
  else s.withPpu { s.ppu with palette := s.ppu.palette.set (paletteIndex a) d }

/-- The 14-bit address of a data-port access (R338). -/
def Ppu.dataAddr (p : Ppu) : Nat := p.v.toNat % 0x4000

/-- `v` after a data-port access: 1 or 32 further, by the control port's bit 2 (R338). -/
def Ppu.advance (p : Ppu) : Ppu :=
  { p with v := p.v + (if p.ctrl.getLsbD 2 then 32 else 1) }

/-- A read of the data port (R338). -/
def dataRead (s : State) : Byte × State :=
  let a := s.ppu.dataAddr
  if 0x3F00 ≤ a then
    (ppuMemRead a s, s.withPpu { s.ppu with readBuffer := ppuMemRead (a &&& 0x2FFF) s }.advance)
  else
    (s.ppu.readBuffer, s.withPpu { s.ppu with readBuffer := ppuMemRead a s }.advance)

/-- A write of the data port (R338). -/
def dataWrite (d : Byte) (s : State) : State :=
  let t := ppuMemWrite s.ppu.dataAddr d s
  t.withPpu t.ppu.advance

/-- The status byte: the three flags over the low five bits of a draw (R333). -/
def Ppu.statusByte (p : Ppu) (draw : Byte) : Byte :=
  BitVec.ofBool p.vblank ++ BitVec.ofBool p.sprite0Hit ++ BitVec.ofBool p.spriteOverflow ++ draw.setWidth 5

/-- A read of the status port: it clears vblank and the write-toggle latch (R333). -/
def statusRead (s : State) : Byte × State :=
  let (d, t) := drawOpen 0x2002 s
  (s.ppu.statusByte d, t.withPpu { t.ppu with vblank := false, w := false })

/-- A write of the control port (R334). -/
def Ppu.ctrlWrite (d : Byte) (p : Ppu) : Ppu :=
  { p with ctrl := d, t := (p.t &&& ~~~0x0C00#15) ||| ((d &&& 3).setWidth 15 <<< 10) }

/-- A write of the OAM data port (R335). -/
def Ppu.oamDataWrite (d : Byte) (p : Ppu) : Ppu :=
  { p with oam := p.oam.set p.oamAddr.toNat d, oamAddr := p.oamAddr + 1 }

/-- A write of the scroll port: X first, then Y (R336). -/
def Ppu.scrollWrite (d : Byte) (p : Ppu) : Ppu :=
  if p.w then
    { p with t := (p.t &&& ~~~0x73E0#15) ||| ((d &&& 7).setWidth 15 <<< 12) ||| ((d &&& 0xF8).setWidth 15 <<< 2), w := false }
  else
    { p with t := (p.t &&& ~~~0x001F#15) ||| (d >>> 3).setWidth 15, fineX := d.setWidth 3, w := true }

/-- A write of the address port: the high byte first, then the low byte (R337). -/
def Ppu.addrWrite (d : Byte) (p : Ppu) : Ppu :=
  if p.w then
    let t := (p.t &&& 0x7F00#15) ||| d.setWidth 15
    { p with t := t, v := t, w := false }
  else
    { p with t := (p.t &&& 0x00FF#15) ||| ((d &&& 0x3F).setWidth 15 <<< 8), w := true }

/-- `PpuPortRead(p)` (R331); ports 4 and 7 are refused while rendering (U4; log 9). -/
def portRead (port : Nat) (s : State) : Except Refusal (Byte × State) :=
  match port with
  | 2 => .ok (statusRead s)
  | 4 => if s.ppu.rendering then .error (.portWhileRendering 4) else .ok (s.ppu.oam.get s.ppu.oamAddr.toNat, s)
  | 7 => if s.ppu.rendering then .error (.portWhileRendering 7) else .ok (dataRead s)
  | _ => .ok (drawOpen (0x2000 + BitVec.ofNat 16 port) s)

/-- Whether a port ignores writes during the warm-up (R332, R340). -/
def warmupPort (port : Nat) : Bool :=
  port == 0 || port == 1 || port == 5 || port == 6

/-- `PpuPortWrite(p, d)` (R332). -/
def portWrite (port : Nat) (d : Byte) (s : State) : Except Refusal State :=
  if warmupPort port ∧ s.cyclesTotal < s.warmupCycles then .ok s
  else
    match port with
    | 0 => .ok (s.withPpu (s.ppu.ctrlWrite d))
    | 1 => .ok (s.withPpu { s.ppu with mask := d })
    | 3 => .ok (s.withPpu { s.ppu with oamAddr := d })
    | 4 => if s.ppu.rendering then .error (.portWhileRendering 4) else .ok (s.withPpu (s.ppu.oamDataWrite d))
    | 5 => .ok (s.withPpu (s.ppu.scrollWrite d))
    | 6 => .ok (s.withPpu (s.ppu.addrWrite d))
    | 7 => if s.ppu.rendering then .error (.portWhileRendering 7) else .ok (dataWrite d s)
    | _ => .ok s

/-- The dot of vertical-blank entry (R344). -/
def Ppu.atVblankEntry (p : Ppu) : Bool := p.scanline == 241 && p.dot == 1

/-- The dot that clears the three status flags (R345). -/
def Ppu.atPreRender (p : Ppu) : Bool := p.scanline == 261 && p.dot == 1

/-- The dots on which a sprite flag may become true: all but (261, 1) to (0, 0) (R346). -/
def Ppu.spriteDot (p : Ppu) : Bool :=
  !(p.scanline == 261 && decide (1 ≤ p.dot)) && !(p.scanline == 0 && p.dot == 0)

/-- `DotActions` on the PPU's own state, on dot number `n` of the model's count (R344 to R346). -/
def Ppu.dotActions (n : Nat) (p : Ppu) : Ppu :=
  if p.atPreRender then { p with vblank := false, sprite0Hit := false, spriteOverflow := false }
  else
    { p with
      vblank := p.vblank || p.atVblankEntry
      sprite0Hit := p.sprite0Hit ||
        (p.spriteDot && (p.mask.getLsbD 3 && p.mask.getLsbD 4) && Config.spriteZeroDraw n)
      spriteOverflow := p.spriteOverflow ||
        (p.spriteDot && (p.mask.getLsbD 3 || p.mask.getLsbD 4) && Config.overflowDraw n) }

/-- The dot after a dot of a scanline: (261, 339) is skipped on odd frames (R341, R342). -/
def Ppu.nextDot (p : Ppu) : Nat :=
  if p.frame % 2 = 1 ∧ p.scanline = 261 ∧ p.dot + 1 = 339 then 340 else p.dot + 1

/-- Advance (scanline, dot, frame) by one dot (R341 to R343). -/
def Ppu.advanceDot (p : Ppu) : Ppu :=
  if p.nextDot = 341 then
    if p.scanline + 1 = 262 then { p with dot := 0, scanline := 0, frame := p.frame + 1, frameComplete := true }
    else { p with dot := 0, scanline := p.scanline + 1 }
  else { p with dot := p.nextDot }

/-- `PpuStep()`: one dot, which asserts the NMI at vertical-blank entry when control bit 7 is set (R341, R344). -/
def ppuStep (s : State) : State :=
  { s with
    ppu := (s.ppu.dotActions s.dotDraws).advanceDot
    nmiPending := s.nmiPending || (s.ppu.atVblankEntry && s.ppu.ctrl.getLsbD 7)
    dotDraws := s.dotDraws + 1 }

/-- The three dots that precede a CPU cycle (R329). -/
def threeDots (s : State) : State := ppuStep (ppuStep (ppuStep s))

end Sys2Proof.Machine
end

