-- ==== Sys2Proof/Machine/Bus.lean ====
section
/-! DEFINITION. The bus: `MemRead` and `MemWrite` of 20_memory.md R63 and R64, with the APU/IO region of 60_exceptions.md R360 to
R364. A bus access answers a value and a state, or the refusal of log 9. -/

namespace Sys2Proof.Machine

/-- The size of program ROM in bytes (20_memory.md R66, R79). -/
def PrgSize.length : PrgSize → Nat
  | .banks1 => 16384
  | .banks2 => 32768

/-- The PRG offset of an address in $8000-$FFFF: a 16 KiB ROM is mirrored (20_memory.md R66). -/
def prgOffset (c : Cartridge) (a : Word) : Nat :=
  (a.toNat - 0x8000) % c.prgSize.length

/-- The program-ROM byte at an address in $8000-$FFFF (20_memory.md R66). -/
def prgByte (s : State) (a : Word) : Byte :=
  s.cart.prg.get (prgOffset s.cart a)

/-- The RAM index of an address in $0000-$1FFF (20_memory.md R65). -/
def ramIndex (a : Word) : Nat := a.toNat % 0x800

/-- A read of controller port 0: the strobed button, or the next bit of the shift register (60_exceptions.md R364). -/
def padRead0 (s : State) : Bool × State :=
  if s.pads.strobe then (s.pads.pad0.getLsbD 0, s)
  else (s.pads.shift0.getLsbD 0, { s with pads := { s.pads with shift0 := (s.pads.shift0 >>> 1) ||| 0x80 } })

/-- A read of controller port 1 (60_exceptions.md R364). -/
def padRead1 (s : State) : Bool × State :=
  if s.pads.strobe then (s.pads.pad1.getLsbD 0, s)
  else (s.pads.shift1.getLsbD 0, { s with pads := { s.pads with shift1 := (s.pads.shift1 >>> 1) ||| 0x80 } })

/-- The byte of a controller read: the bit under bits 7..5 of a draw, bits 4..1 zero (60_exceptions.md R364). -/
def padByte (draw : Byte) (bit : Bool) : Byte :=
  (draw &&& 0xE0) ||| (BitVec.ofBool bit).setWidth 8

/-- `IoRead(addr)` (60_exceptions.md R360). -/
def ioRead (a : Word) (s : State) : Byte × State :=
  if a = 0x4016 then
    let (bit, t) := padRead0 s
    let (d, u) := drawOpen a t
    (padByte d bit, u)
  else if a = 0x4017 then
    let (bit, t) := padRead1 s
    let (d, u) := drawOpen a t
    (padByte d bit, u)
  else drawOpen a s

/-- `CartRead(addr)`: program ROM at $8000-$FFFF, nothing at $4020-$7FFF (20_memory.md R66, R67). -/
def cartRead (a : Word) (s : State) : Byte × State :=
  if 0x8000 ≤ a.toNat then (prgByte s a, s) else drawOpen a s

/-- `MemRead(addr, 1)` (20_memory.md R63). -/
def memRead (a : Word) (s : State) : Except Refusal (Byte × State) :=
  if a.toNat ≤ 0x1FFF then .ok (s.ram.get (ramIndex a), s)
  else if a.toNat ≤ 0x3FFF then portRead (a.toNat % 8) s
  else if a.toNat ≤ 0x401F then .ok (ioRead a s)
  else .ok (cartRead a s)

/-- The copy of an OAM DMA: `n` bytes of page `d` from offset `i` on, into OAM from `oam_addr` on (60_exceptions.md R363). -/
def dmaCopy (d : Byte) : Nat → Byte → State → Except Refusal State
  | 0, _, s => .ok s
  | n + 1, i, s =>
    match memRead (wordOf i d) s with
    | .error r => .error r
    | .ok (v, t) => dmaCopy d n (i + 1) (t.withPpu { t.ppu with oam := t.ppu.oam.set (s.ppu.oamAddr + i).toNat v })

/-- `OamDma(d)`: the copy of 256 bytes, then the stall with its parity term (60_exceptions.md R363; log 12). -/
def oamDma (d : Byte) (s : State) : Except Refusal State :=
  match dmaCopy d 256 0 s with
  | .error r => .error r
  | .ok t => .ok { t with dmaStall := 513 + t.cyclesTotal % 2 }

/-- `ControllerStrobe(d)` (60_exceptions.md R364). -/
def strobeWrite (d : Byte) (s : State) : State :=
  if d.getLsbD 0 then
    { s with pads := { s.pads with strobe := true, shift0 := s.pads.pad0, shift1 := s.pads.pad1 } }
  else { s with pads := { s.pads with strobe := false } }

/-- `IoWrite(addr, d)` (60_exceptions.md R361, R362). -/
def ioWrite (a : Word) (d : Byte) (s : State) : Except Refusal State :=
  if a = 0x4014 then oamDma d s
  else if a = 0x4016 then .ok (strobeWrite d s)
  else .ok s

/-- `MemWrite(addr, 1, v)`; a write to the cartridge has no effect (20_memory.md R64, R66, R67). -/
def memWrite (a : Word) (v : Byte) (s : State) : Except Refusal State :=
  if a.toNat ≤ 0x1FFF then .ok { s with ram := s.ram.set (ramIndex a) v }
  else if a.toNat ≤ 0x3FFF then portWrite (a.toNat % 8) v s
  else if a.toNat ≤ 0x401F then ioWrite a v s
  else .ok s

end Sys2Proof.Machine
end

