-- ==== Sys2Proof/Machine/Flags.lean ====
section
/-! DEFINITION. Every flag computation of the spec: the packed status byte, `setNZ`, the adder, the compare and the bit test, and the
one-operand operations of the read-modify-write instructions. -/

namespace Sys2Proof.Machine

/-- The byte a push of P writes, with break bit `b`; bit 5 is 1 (10_state.md R35). -/
def pack (p : Status) (b : Bool) : Byte :=
  BitVec.ofBool p.n ++ BitVec.ofBool p.v ++ 1#1 ++ BitVec.ofBool b ++ BitVec.ofBool p.d ++ BitVec.ofBool p.i ++ BitVec.ofBool p.z ++
    BitVec.ofBool p.c

/-- The flags a pulled byte gives; bit 5 is discarded (10_state.md R36). -/
def unpack (m : Byte) : Status :=
  { n := m.getLsbD 7, v := m.getLsbD 6, b := m.getLsbD 4, d := m.getLsbD 3, i := m.getLsbD 2, z := m.getLsbD 1, c := m.getLsbD 0 }

/-- N is bit 7 of the value and Z says that it is 0 (00_scope.md R8). -/
def setNZ (p : Status) (r : Byte) : Status :=
  { p with n := r.getLsbD 7, z := r == 0 }

/-- The exact sum of the adder, an integer in 0..511 (42_arith_logic.md R180). -/
def exactSum (a m : Byte) (c : Bool) : Nat :=
  a.toNat + m.toNat + c.toNat

/-- The adder's result byte (R180). -/
def sumResult (a m : Byte) (c : Bool) : Byte :=
  BitVec.ofNat 8 (exactSum a m c)

/-- The carry out of bit 7 (R180). -/
def sumCarry (a m : Byte) (c : Bool) : Bool :=
  decide (255 < exactSum a m c)

/-- Signed overflow: the operands agree in sign and the result differs (R180). -/
def sumOverflow (a m : Byte) (c : Bool) : Bool :=
  (~~~(a ^^^ m) &&& (a ^^^ sumResult a m c) &&& 0x80) != 0

/-- The flags after ADC, or after SBC with the complemented operand (R181, R182). -/
def addFlags (p : Status) (a m : Byte) : Status :=
  setNZ { p with c := sumCarry a m p.c, v := sumOverflow a m p.c } (sumResult a m p.c)

/-- The compare primitive on register `r` and operand `m` (42_arith_logic.md R196). -/
def compareFlags (p : Status) (r m : Byte) : Status :=
  { p with c := decide (m.toNat ≤ r.toNat), z := r == m, n := (r - m).getLsbD 7 }

/-- The flags of BIT (42_arith_logic.md R189). -/
def bitFlags (p : Status) (a m : Byte) : Status :=
  { p with z := (a &&& m) == 0, n := m.getLsbD 7, v := m.getLsbD 6 }

/-- ASL on a value (43_shift_rotate.md R211): the result and the flags. -/
def shiftLeft (v : Byte) (p : Status) : Byte × Status :=
  let r := v <<< 1
  (r, setNZ { p with c := v.getLsbD 7 } r)

/-- LSR on a value (R212). -/
def shiftRight (v : Byte) (p : Status) : Byte × Status :=
  let r := v >>> 1
  (r, setNZ { p with c := v.getLsbD 0 } r)

/-- ROL on a value: the old carry enters bit 0 (R213). -/
def rotateLeft (v : Byte) (p : Status) : Byte × Status :=
  let r := (v <<< 1) ||| (BitVec.ofBool p.c).setWidth 8
  (r, setNZ { p with c := v.getLsbD 7 } r)

/-- ROR on a value: the old carry enters bit 7 (R214). -/
def rotateRight (v : Byte) (p : Status) : Byte × Status :=
  let r := (v >>> 1) ||| ((BitVec.ofBool p.c).setWidth 8 <<< 7)
  (r, setNZ { p with c := v.getLsbD 0 } r)

/-- INC on a value (42_arith_logic.md R190). -/
def increment (v : Byte) (p : Status) : Byte × Status :=
  (v + 1, setNZ p (v + 1))

/-- DEC on a value (42_arith_logic.md R191). -/
def decrement (v : Byte) (p : Status) : Byte × Status :=
  (v - 1, setNZ p (v - 1))

end Sys2Proof.Machine
end

