-- ==== Sys2Proof/Machine/Ops.lean ====
section
/-! DEFINITION. The named operations the instructions share: register writes, the stack, fetching, taking an exception and returning
from one. The stack page, the zero page and the vectors lie in RAM and in program ROM, so the operations on them reach those
memories directly; Laws/Bus.lean proves that this is what `MemRead` and `MemWrite` do there (log 13). -/

namespace Sys2Proof.Machine

/-- A bus access that gives the next state, or its refusal. -/
def outcome : Except Refusal State → Host.Outcome State Fault Refusal
  | .ok t => .next t
  | .error r => .refused r

/-- `A <- v; setNZ(A)` (00_scope.md R8). -/
def State.writeA (v : Byte) (s : State) : State := { s with a := v, p := setNZ s.p v }

/-- `X <- v; setNZ(X)`. -/
def State.writeX (v : Byte) (s : State) : State := { s with x := v, p := setNZ s.p v }

/-- `Y <- v; setNZ(Y)`. -/
def State.writeY (v : Byte) (s : State) : State := { s with y := v, p := setNZ s.p v }

/-- The state with other flags. -/
def State.withP (p : Status) (s : State) : State := { s with p := p }

/-- The end of an instruction rule: PC and the remaining-cycle counter are set (00_scope.md R11). -/
def State.retire (pc : Word) (cost : Nat) (s : State) : State := { s with pc := pc, cyclesRemaining := cost }

/-- The RAM index of the stack byte at `sp` (10_state.md R45). -/
def stackIndex (sp : Byte) : Nat := 0x100 + sp.toNat

/-- `push(v)` (00_scope.md R9). -/
def State.push (v : Byte) (s : State) : State := { s with ram := s.ram.set (stackIndex s.sp) v, sp := s.sp - 1 }

/-- Push a 16-bit value, its high byte first (20_memory.md R71). -/
def State.pushWord (v : Word) (s : State) : State := (s.push (highByte v)).push (lowByte v)

/-- The byte that the next `pull()` returns (00_scope.md R9). -/
def State.top (s : State) : Byte := s.ram.get (stackIndex (s.sp + 1))

/-- The state after a `pull()` (00_scope.md R9). -/
def State.popped (s : State) : State := { s with sp := s.sp + 1 }

/-- The zero-page byte at `z` (20_memory.md R69). -/
def State.zeroPage (s : State) (z : Byte) : Byte := s.ram.get z.toNat

/-- `Read16zp(z)`: the pointer's high byte wraps inside the zero page (00_scope.md R9). -/
def State.zeroPageWord (s : State) (z : Byte) : Word := wordOf (s.zeroPage z) (s.zeroPage (z + 1))

/-- `Read16(vector)` for a vector in program ROM (00_scope.md R9, 20_memory.md R68). -/
def State.vector (s : State) (a : Word) : Word := wordOf (prgByte s a) (prgByte s (a + 1))

/-- Taking an interrupt, shared by NMI, IRQ and BRK: push the return address and P with the break bit `b`, set I, load PC from the
vector (60_exceptions.md R310). It costs 7 cycles. -/
def enterInterrupt (ret : Word) (b : Bool) (vector : Word) (s : State) : State :=
  let t := (s.pushWord ret).push (pack s.p b)
  (t.withP { s.p with i := true }).retire (s.vector vector) 7

/-- Returning from an interrupt: pull P, then PC, low byte first, with no 1 added (45_control.md R243). -/
def returnFromInterrupt (cost : Nat) (s : State) : State :=
  let t := s.popped.withP (unpack s.top)
  let u := t.popped
  u.popped.retire (wordOf t.top u.top) cost

/-- The fatal decode error: halted and its record, and nothing else (60_exceptions.md R300; log 8). -/
def raiseIllegal (op : Byte) (s : State) : State :=
  { s with halted := true, fault := some (s.pc, op) }

/-- Fetch and decode the instruction at PC: the opcode byte, then the operand bytes its length needs, each a bus read in this order;
BRK's padding byte is not read (70_reset_and_hazards.md R411, 40_addressing.md R145). -/
def fetch (s : State) : Except Refusal (Instr × State) :=
  match memRead s.pc s with
  | .error r => .error r
  | .ok (op, t) =>
    match opcodeShape op with
    | .undefined => .ok (.illegal op, t)
    | .implied i => .ok (i, t)
    | .padded i => .ok (i, t)
    | .byte f =>
      match memRead (s.pc + 1) t with
      | .error r => .error r
      | .ok (b1, u) => .ok (f b1, u)
    | .word f =>
      match memRead (s.pc + 1) t with
      | .error r => .error r
      | .ok (b1, u) =>
        match memRead (s.pc + 2) u with
        | .error r => .error r
        | .ok (b2, w) => .ok (f (wordOf b1 b2), w)

/-- Put a byte of a program at a bus address: in RAM or in program ROM, and nowhere else (log 7). -/
def placeByte (a : Word) (v : Byte) (s : State) : State :=
  if a.toNat ≤ 0x1FFF then { s with ram := s.ram.set (ramIndex a) v }
  else if 0x8000 ≤ a.toNat then { s with cart := { s.cart with prg := s.cart.prg.set (prgOffset s.cart a) v } }
  else s

/-- Whether a byte of a program can be placed at an address. -/
def placeable (a : Word) : Bool := decide (a.toNat ≤ 0x1FFF) || decide (0x8000 ≤ a.toNat)

/-- The state made ready to fetch in its very next step: a boundary of a running session with no interrupt to take, at an address
where bytes can be placed (log 7). -/
def readyToFetch (s : State) : State :=
  let pc := if placeable s.pc && placeable (s.pc + 1) && placeable (s.pc + 2) then s.pc else 0
  let r := { s with pc := pc, cyclesRemaining := 0, halted := false, fault := none, nmiPending := false,
                    irqLine := false }
  if (threeDots r).nmiPending then r.withPpu { r.ppu with ctrl := r.ppu.ctrl &&& 0x7F } else r

/-- The state with a table word's instruction placed where the next step fetches (log 7). -/
def placeTableWord (s : State) (nbits w : Nat) : State :=
  let r := readyToFetch s
  let v := w % 2 ^ nbits
  placeByte (r.pc + 2) (byteAt v 2) (placeByte (r.pc + 1) (byteAt v 1) (placeByte r.pc (byteAt v 0) r))

end Sys2Proof.Machine
end

