-- ==== Sys2Proof/Machine/Operands.lean ====
section
/-! DEFINITION. The operand forms that address memory (40_addressing.md R134 to R142) and the access classes of R144: read, write,
read-modify-write, and the shapes of the implied instructions and the branches. A meaning is one of these shapes applied to a form, a
base cost (70_reset_and_hazards.md R413) and an effect. -/

namespace Sys2Proof.Machine

/-- A memory operand form with its operand bytes. -/
inductive MemMode where
  | zp (z : Byte)
  | zpx (z : Byte)
  | zpy (z : Byte)
  | abs (a : Word)
  | abx (a : Word)
  | aby (a : Word)
  | izx (z : Byte)
  | izy (z : Byte)
  deriving DecidableEq, Repr

/-- The effective address (R134 to R139, R141, R142). -/
def effectiveAddress (m : MemMode) (s : State) : Word :=
  match m with
  | .zp z => z.setWidth 16
  | .zpx z => (z + s.x).setWidth 16
  | .zpy z => (z + s.y).setWidth 16
  | .abs a => a
  | .abx a => a + s.x.setWidth 16
  | .aby a => a + s.y.setWidth 16
  | .izx z => s.zeroPageWord (z + s.x)
  | .izy z => s.zeroPageWord z + s.y.setWidth 16

/-- Whether two addresses lie in different pages (00_scope.md R13). -/
def otherPage (a b : Word) : Bool := highByte a != highByte b

/-- The page-crossing predicate of a form (R138, R139, R142). -/
def pageCrossed (m : MemMode) (s : State) : Bool :=
  match m with
  | .abx a => otherPage a (effectiveAddress m s)
  | .aby a => otherPage a (effectiveAddress m s)
  | .izy z => otherPage (s.zeroPageWord z) (effectiveAddress m s)
  | _ => false

/-- The length of an instruction with this form (30_encoding.md R101). -/
def modeLength (m : MemMode) : Word :=
  match m with
  | .abs _ | .abx _ | .aby _ => 3
  | _ => 2

/-- The read class: one read at the effective address, an effect of the byte, and one more cycle for a page crossing (R144, R146,
70_reset_and_hazards.md R412). -/
def readMem (m : MemMode) (base : Nat) (effect : Byte → State → State) (s : State) : Host.Outcome State Fault Refusal :=
  match memRead (effectiveAddress m s) s with
  | .error r => .refused r
  | .ok (v, t) => .next ((effect v t).retire (s.pc + modeLength m) (base + (pageCrossed m s).toNat))

/-- The read class with an immediate operand: 2 bytes, 2 cycles, no data access (R133, R144). -/
def readImm (v : Byte) (effect : Byte → State → State) (s : State) : Host.Outcome State Fault Refusal :=
  .next ((effect v s).retire (s.pc + 2) 2)

/-- The write class: one write at the effective address, no penalty (R144, R146). -/
def writeMem (m : MemMode) (base : Nat) (v : Byte) (s : State) : Host.Outcome State Fault Refusal :=
  match memWrite (effectiveAddress m s) v s with
  | .error r => .refused r
  | .ok t => .next (t.retire (s.pc + modeLength m) base)

/-- The read-modify-write class: one read, then one write of the result, no penalty (R144, R146, 43_shift_rotate.md R210). -/
def modifyMem (m : MemMode) (base : Nat) (f : Byte → Status → Byte × Status) (s : State) : Host.Outcome State Fault Refusal :=
  match memRead (effectiveAddress m s) s with
  | .error r => .refused r
  | .ok (v, t) =>
    match memWrite (effectiveAddress m s) (f v s.p).1 t with
    | .error r => .refused r
    | .ok u => .next ((u.withP (f v s.p).2).retire (s.pc + modeLength m) base)

/-- A shift or rotate of A: 1 byte, 2 cycles (R132, 43_shift_rotate.md R210). -/
def modifyAcc (f : Byte → Status → Byte × Status) (s : State) : Host.Outcome State Fault Refusal :=
  .next (({ s with a := (f s.a s.p).1, p := (f s.a s.p).2 } : State).retire (s.pc + 1) 2)

/-- An instruction of one byte with an effect on the registers and the stack (R131). -/
def implied (cost : Nat) (effect : State → State) (s : State) : Host.Outcome State Fault Refusal :=
  .next ((effect s).retire (s.pc + 1) cost)

/-- The target of a branch: the offset is signed and relative to the next instruction (R143). -/
def branchTarget (off : Byte) (s : State) : Word :=
  s.pc + 2 + off.signExtend 16

/-- A conditional branch: 2 cycles, one more when taken, and one more when the target is in another page (45_control.md R233,
70_reset_and_hazards.md R412). -/
def branch (cond : Bool) (off : Byte) (s : State) : Host.Outcome State Fault Refusal :=
  if cond then
    .next (s.retire (branchTarget off s) (3 + (otherPage (s.pc + 2) (branchTarget off s)).toNat))
  else .next (s.retire (s.pc + 2) 2)

/-- The second address of `Read16page`: the high byte stays in the pointer's page (00_scope.md R9, 40_addressing.md R140). -/
def pageNext (a : Word) : Word := (a &&& 0xFF00) ||| ((a + 1) &&& 0x00FF)

/-- `Read16page(a)`: the low byte, then the high byte (R140). -/
def readPageWord (a : Word) (s : State) : Except Refusal (Word × State) :=
  match memRead a s with
  | .error r => .error r
  | .ok (lo, t) =>
    match memRead (pageNext a) t with
    | .error r => .error r
    | .ok (hi, u) => .ok (wordOf lo hi, u)

end Sys2Proof.Machine
end

