-- ==== Sys2Proof/Machine/ArithLogic.lean ====
section
/-! DEFINITION. Arithmetic, logic, compare, bit test, increment and decrement (42_arith_logic.md R180 to R196). -/

namespace Sys2Proof.Machine

/-- `A <- A + m + C` and its flags (R181). -/
def adc (m : Byte) (s : State) : State := { s with a := sumResult s.a m s.p.c, p := addFlags s.p s.a m }

/-- `A <- A + ~m + C` and its flags: carry 1 means no borrow (R182). -/
def sbc (m : Byte) (s : State) : State := adc (~~~m) s

/-- `A <- A & m` (R183). -/
def andA (m : Byte) (s : State) : State := s.writeA (s.a &&& m)

/-- `A <- A | m` (R184). -/
def ora (m : Byte) (s : State) : State := s.writeA (s.a ||| m)

/-- `A <- A ^ m` (R185). -/
def eor (m : Byte) (s : State) : State := s.writeA (s.a ^^^ m)

/-- `Compare(A, m)` (R186). -/
def cmp (m : Byte) (s : State) : State := s.withP (compareFlags s.p s.a m)

/-- `Compare(X, m)` (R187). -/
def cpx (m : Byte) (s : State) : State := s.withP (compareFlags s.p s.x m)

/-- `Compare(Y, m)` (R188). -/
def cpy (m : Byte) (s : State) : State := s.withP (compareFlags s.p s.y m)

/-- The flags of BIT (R189). -/
def bit (m : Byte) (s : State) : State := s.withP (bitFlags s.p s.a m)

/-- 69 ADC #v (R181). -/
def execAdcImm (v : Byte) (s : State) : Host.Outcome State Fault Refusal :=
  readImm v adc s

/-- 65 ADC z (R181). -/
def execAdcZp (z : Byte) (s : State) : Host.Outcome State Fault Refusal :=
  readMem (.zp z) 3 adc s

/-- 75 ADC z,X (R181). -/
def execAdcZpx (z : Byte) (s : State) : Host.Outcome State Fault Refusal :=
  readMem (.zpx z) 4 adc s

/-- 6D ADC a (R181). -/
def execAdcAbs (a : Word) (s : State) : Host.Outcome State Fault Refusal :=
  readMem (.abs a) 4 adc s

/-- 7D ADC a,X (R181). -/
def execAdcAbx (a : Word) (s : State) : Host.Outcome State Fault Refusal :=
  readMem (.abx a) 4 adc s

/-- 79 ADC a,Y (R181). -/
def execAdcAby (a : Word) (s : State) : Host.Outcome State Fault Refusal :=
  readMem (.aby a) 4 adc s

/-- 61 ADC (z,X) (R181). -/
def execAdcIzx (z : Byte) (s : State) : Host.Outcome State Fault Refusal :=
  readMem (.izx z) 6 adc s

/-- 71 ADC (z),Y (R181). -/
def execAdcIzy (z : Byte) (s : State) : Host.Outcome State Fault Refusal :=
  readMem (.izy z) 5 adc s

/-- E9 SBC #v (R182). -/
def execSbcImm (v : Byte) (s : State) : Host.Outcome State Fault Refusal :=
  readImm v sbc s

/-- E5 SBC z (R182). -/
def execSbcZp (z : Byte) (s : State) : Host.Outcome State Fault Refusal :=
  readMem (.zp z) 3 sbc s

/-- F5 SBC z,X (R182). -/
def execSbcZpx (z : Byte) (s : State) : Host.Outcome State Fault Refusal :=
  readMem (.zpx z) 4 sbc s

/-- ED SBC a (R182). -/
def execSbcAbs (a : Word) (s : State) : Host.Outcome State Fault Refusal :=
  readMem (.abs a) 4 sbc s

/-- FD SBC a,X (R182). -/
def execSbcAbx (a : Word) (s : State) : Host.Outcome State Fault Refusal :=
  readMem (.abx a) 4 sbc s

/-- F9 SBC a,Y (R182). -/
def execSbcAby (a : Word) (s : State) : Host.Outcome State Fault Refusal :=
  readMem (.aby a) 4 sbc s

/-- E1 SBC (z,X) (R182). -/
def execSbcIzx (z : Byte) (s : State) : Host.Outcome State Fault Refusal :=
  readMem (.izx z) 6 sbc s

/-- F1 SBC (z),Y (R182). -/
def execSbcIzy (z : Byte) (s : State) : Host.Outcome State Fault Refusal :=
  readMem (.izy z) 5 sbc s

/-- 29 AND #v (R183). -/
def execAndImm (v : Byte) (s : State) : Host.Outcome State Fault Refusal :=
  readImm v andA s

/-- 25 AND z (R183). -/
def execAndZp (z : Byte) (s : State) : Host.Outcome State Fault Refusal :=
  readMem (.zp z) 3 andA s

/-- 35 AND z,X (R183). -/
def execAndZpx (z : Byte) (s : State) : Host.Outcome State Fault Refusal :=
  readMem (.zpx z) 4 andA s

/-- 2D AND a (R183). -/
def execAndAbs (a : Word) (s : State) : Host.Outcome State Fault Refusal :=
  readMem (.abs a) 4 andA s

/-- 3D AND a,X (R183). -/
def execAndAbx (a : Word) (s : State) : Host.Outcome State Fault Refusal :=
  readMem (.abx a) 4 andA s

/-- 39 AND a,Y (R183). -/
def execAndAby (a : Word) (s : State) : Host.Outcome State Fault Refusal :=
  readMem (.aby a) 4 andA s

/-- 21 AND (z,X) (R183). -/
def execAndIzx (z : Byte) (s : State) : Host.Outcome State Fault Refusal :=
  readMem (.izx z) 6 andA s

/-- 31 AND (z),Y (R183). -/
def execAndIzy (z : Byte) (s : State) : Host.Outcome State Fault Refusal :=
  readMem (.izy z) 5 andA s

/-- 09 ORA #v (R184). -/
def execOraImm (v : Byte) (s : State) : Host.Outcome State Fault Refusal :=
  readImm v ora s

/-- 05 ORA z (R184). -/
def execOraZp (z : Byte) (s : State) : Host.Outcome State Fault Refusal :=
  readMem (.zp z) 3 ora s

/-- 15 ORA z,X (R184). -/
def execOraZpx (z : Byte) (s : State) : Host.Outcome State Fault Refusal :=
  readMem (.zpx z) 4 ora s

/-- 0D ORA a (R184). -/
def execOraAbs (a : Word) (s : State) : Host.Outcome State Fault Refusal :=
  readMem (.abs a) 4 ora s

/-- 1D ORA a,X (R184). -/
def execOraAbx (a : Word) (s : State) : Host.Outcome State Fault Refusal :=
  readMem (.abx a) 4 ora s

/-- 19 ORA a,Y (R184). -/
def execOraAby (a : Word) (s : State) : Host.Outcome State Fault Refusal :=
  readMem (.aby a) 4 ora s

/-- 01 ORA (z,X) (R184). -/
def execOraIzx (z : Byte) (s : State) : Host.Outcome State Fault Refusal :=
  readMem (.izx z) 6 ora s

/-- 11 ORA (z),Y (R184). -/
def execOraIzy (z : Byte) (s : State) : Host.Outcome State Fault Refusal :=
  readMem (.izy z) 5 ora s

/-- 49 EOR #v (R185). -/
def execEorImm (v : Byte) (s : State) : Host.Outcome State Fault Refusal :=
  readImm v eor s

/-- 45 EOR z (R185). -/
def execEorZp (z : Byte) (s : State) : Host.Outcome State Fault Refusal :=
  readMem (.zp z) 3 eor s

/-- 55 EOR z,X (R185). -/
def execEorZpx (z : Byte) (s : State) : Host.Outcome State Fault Refusal :=
  readMem (.zpx z) 4 eor s

/-- 4D EOR a (R185). -/
def execEorAbs (a : Word) (s : State) : Host.Outcome State Fault Refusal :=
  readMem (.abs a) 4 eor s

/-- 5D EOR a,X (R185). -/
def execEorAbx (a : Word) (s : State) : Host.Outcome State Fault Refusal :=
  readMem (.abx a) 4 eor s

/-- 59 EOR a,Y (R185). -/
def execEorAby (a : Word) (s : State) : Host.Outcome State Fault Refusal :=
  readMem (.aby a) 4 eor s

/-- 41 EOR (z,X) (R185). -/
def execEorIzx (z : Byte) (s : State) : Host.Outcome State Fault Refusal :=
  readMem (.izx z) 6 eor s

/-- 51 EOR (z),Y (R185). -/
def execEorIzy (z : Byte) (s : State) : Host.Outcome State Fault Refusal :=
  readMem (.izy z) 5 eor s

/-- C9 CMP #v (R186). -/
def execCmpImm (v : Byte) (s : State) : Host.Outcome State Fault Refusal :=
  readImm v cmp s

/-- C5 CMP z (R186). -/
def execCmpZp (z : Byte) (s : State) : Host.Outcome State Fault Refusal :=
  readMem (.zp z) 3 cmp s

/-- D5 CMP z,X (R186). -/
def execCmpZpx (z : Byte) (s : State) : Host.Outcome State Fault Refusal :=
  readMem (.zpx z) 4 cmp s

/-- CD CMP a (R186). -/
def execCmpAbs (a : Word) (s : State) : Host.Outcome State Fault Refusal :=
  readMem (.abs a) 4 cmp s

/-- DD CMP a,X (R186). -/
def execCmpAbx (a : Word) (s : State) : Host.Outcome State Fault Refusal :=
  readMem (.abx a) 4 cmp s

/-- D9 CMP a,Y (R186). -/
def execCmpAby (a : Word) (s : State) : Host.Outcome State Fault Refusal :=
  readMem (.aby a) 4 cmp s

/-- C1 CMP (z,X) (R186). -/
def execCmpIzx (z : Byte) (s : State) : Host.Outcome State Fault Refusal :=
  readMem (.izx z) 6 cmp s

/-- D1 CMP (z),Y (R186). -/
def execCmpIzy (z : Byte) (s : State) : Host.Outcome State Fault Refusal :=
  readMem (.izy z) 5 cmp s

/-- E0 CPX #v (R187). -/
def execCpxImm (v : Byte) (s : State) : Host.Outcome State Fault Refusal :=
  readImm v cpx s

/-- E4 CPX z (R187). -/
def execCpxZp (z : Byte) (s : State) : Host.Outcome State Fault Refusal :=
  readMem (.zp z) 3 cpx s

/-- EC CPX a (R187). -/
def execCpxAbs (a : Word) (s : State) : Host.Outcome State Fault Refusal :=
  readMem (.abs a) 4 cpx s

/-- C0 CPY #v (R188). -/
def execCpyImm (v : Byte) (s : State) : Host.Outcome State Fault Refusal :=
  readImm v cpy s

/-- C4 CPY z (R188). -/
def execCpyZp (z : Byte) (s : State) : Host.Outcome State Fault Refusal :=
  readMem (.zp z) 3 cpy s

/-- CC CPY a (R188). -/
def execCpyAbs (a : Word) (s : State) : Host.Outcome State Fault Refusal :=
  readMem (.abs a) 4 cpy s

/-- 24 BIT z (R189). -/
def execBitZp (z : Byte) (s : State) : Host.Outcome State Fault Refusal :=
  readMem (.zp z) 3 bit s

/-- 2C BIT a (R189). -/
def execBitAbs (a : Word) (s : State) : Host.Outcome State Fault Refusal :=
  readMem (.abs a) 4 bit s

/-- E6 INC z (R190). -/
def execIncZp (z : Byte) (s : State) : Host.Outcome State Fault Refusal :=
  modifyMem (.zp z) 5 increment s

/-- F6 INC z,X (R190). -/
def execIncZpx (z : Byte) (s : State) : Host.Outcome State Fault Refusal :=
  modifyMem (.zpx z) 6 increment s

/-- EE INC a (R190). -/
def execIncAbs (a : Word) (s : State) : Host.Outcome State Fault Refusal :=
  modifyMem (.abs a) 6 increment s

/-- FE INC a,X (R190). -/
def execIncAbx (a : Word) (s : State) : Host.Outcome State Fault Refusal :=
  modifyMem (.abx a) 7 increment s

/-- C6 DEC z (R191). -/
def execDecZp (z : Byte) (s : State) : Host.Outcome State Fault Refusal :=
  modifyMem (.zp z) 5 decrement s

/-- D6 DEC z,X (R191). -/
def execDecZpx (z : Byte) (s : State) : Host.Outcome State Fault Refusal :=
  modifyMem (.zpx z) 6 decrement s

/-- CE DEC a (R191). -/
def execDecAbs (a : Word) (s : State) : Host.Outcome State Fault Refusal :=
  modifyMem (.abs a) 6 decrement s

/-- DE DEC a,X (R191). -/
def execDecAbx (a : Word) (s : State) : Host.Outcome State Fault Refusal :=
  modifyMem (.abx a) 7 decrement s

/-- E8 INX (R192). -/
def execInx (s : State) : Host.Outcome State Fault Refusal :=
  implied 2 (fun t => t.writeX (t.x + 1)) s

/-- C8 INY (R193). -/
def execIny (s : State) : Host.Outcome State Fault Refusal :=
  implied 2 (fun t => t.writeY (t.y + 1)) s

/-- CA DEX (R194). -/
def execDex (s : State) : Host.Outcome State Fault Refusal :=
  implied 2 (fun t => t.writeX (t.x - 1)) s

/-- 88 DEY (R195). -/
def execDey (s : State) : Host.Outcome State Fault Refusal :=
  implied 2 (fun t => t.writeY (t.y - 1)) s

end Sys2Proof.Machine
end

