-- ==== Sys2Proof/Machine/Control.lean ====
section
/-! DEFINITION. Jumps, calls, returns, branches, the software interrupt (45_control.md R230 to R243) and the fatal decode error. -/

namespace Sys2Proof.Machine

/-- 4C JMP a (R230). -/
def execJmpAbs (a : Word) (s : State) : Host.Outcome State Fault Refusal :=
  .next (s.retire a 3)

/-- 6C JMP (a) (R230). -/
def execJmpInd (a : Word) (s : State) : Host.Outcome State Fault Refusal :=
  match readPageWord a s with
  | .error r => .refused r
  | .ok (target, t) => .next (t.retire target 5)

/-- 20 JSR a (R231). -/
def execJsrAbs (a : Word) (s : State) : Host.Outcome State Fault Refusal :=
  .next ((s.pushWord (s.pc + 2)).retire a 6)

/-- 60 RTS (R232). -/
def execRts (s : State) : Host.Outcome State Fault Refusal :=
  .next (s.popped.popped.retire (wordOf s.top s.popped.top + 1) 6)

/-- 90 BCC off (R234). -/
def execBcc (off : Byte) (s : State) : Host.Outcome State Fault Refusal :=
  branch (!s.p.c) off s

/-- B0 BCS off (R235). -/
def execBcs (off : Byte) (s : State) : Host.Outcome State Fault Refusal :=
  branch s.p.c off s

/-- F0 BEQ off (R236). -/
def execBeq (off : Byte) (s : State) : Host.Outcome State Fault Refusal :=
  branch s.p.z off s

/-- 30 BMI off (R237). -/
def execBmi (off : Byte) (s : State) : Host.Outcome State Fault Refusal :=
  branch s.p.n off s

/-- D0 BNE off (R238). -/
def execBne (off : Byte) (s : State) : Host.Outcome State Fault Refusal :=
  branch (!s.p.z) off s

/-- 10 BPL off (R239). -/
def execBpl (off : Byte) (s : State) : Host.Outcome State Fault Refusal :=
  branch (!s.p.n) off s

/-- 50 BVC off (R240). -/
def execBvc (off : Byte) (s : State) : Host.Outcome State Fault Refusal :=
  branch (!s.p.v) off s

/-- 70 BVS off (R241). -/
def execBvs (off : Byte) (s : State) : Host.Outcome State Fault Refusal :=
  branch s.p.v off s

/-- 00 BRK (R242). -/
def execBrk (s : State) : Host.Outcome State Fault Refusal :=
  .next (enterInterrupt (s.pc + 2) true Config.irqVector s)

/-- 40 RTI (R243). -/
def execRti (s : State) : Host.Outcome State Fault Refusal :=
  .next (returnFromInterrupt 6 s)

/-- An undefined opcode: the fatal decode error (60_exceptions.md R300). -/
def execIllegal (op : Byte) (s : State) : Host.Outcome State Fault Refusal :=
  .next (raiseIllegal op s)

end Sys2Proof.Machine
end

