-- ==== Sys2Proof/Machine/FlagsMisc.lean ====
section
/-! DEFINITION. Flag instructions and NOP (46_flags_misc.md R260 to R267). -/

namespace Sys2Proof.Machine

/-- 18 CLC (R260). -/
def execClc (s : State) : Host.Outcome State Fault Refusal :=
  implied 2 (fun t => t.withP { t.p with c := false }) s

/-- D8 CLD (R261). -/
def execCld (s : State) : Host.Outcome State Fault Refusal :=
  implied 2 (fun t => t.withP { t.p with d := false }) s

/-- 58 CLI (R262). -/
def execCli (s : State) : Host.Outcome State Fault Refusal :=
  implied 2 (fun t => t.withP { t.p with i := false }) s

/-- B8 CLV (R263). -/
def execClv (s : State) : Host.Outcome State Fault Refusal :=
  implied 2 (fun t => t.withP { t.p with v := false }) s

/-- 38 SEC (R264). -/
def execSec (s : State) : Host.Outcome State Fault Refusal :=
  implied 2 (fun t => t.withP { t.p with c := true }) s

/-- F8 SED (R265). -/
def execSed (s : State) : Host.Outcome State Fault Refusal :=
  implied 2 (fun t => t.withP { t.p with d := true }) s

/-- 78 SEI (R266). -/
def execSei (s : State) : Host.Outcome State Fault Refusal :=
  implied 2 (fun t => t.withP { t.p with i := true }) s

/-- EA NOP (R267). -/
def execNop (s : State) : Host.Outcome State Fault Refusal :=
  implied 2 (fun t => t) s

end Sys2Proof.Machine
end

