-- ==== Sys2Proof/Machine/LoadStore.lean ====
section
/-! DEFINITION. Loads, stores and register transfers (41_load_store_transfer.md R160 to R171). -/

namespace Sys2Proof.Machine

/-- A9 LDA #v (R160). -/
def execLdaImm (v : Byte) (s : State) : Host.Outcome State Fault Refusal :=
  readImm v State.writeA s

/-- A5 LDA z (R160). -/
def execLdaZp (z : Byte) (s : State) : Host.Outcome State Fault Refusal :=
  readMem (.zp z) 3 State.writeA s

/-- B5 LDA z,X (R160). -/
def execLdaZpx (z : Byte) (s : State) : Host.Outcome State Fault Refusal :=
  readMem (.zpx z) 4 State.writeA s

/-- AD LDA a (R160). -/
def execLdaAbs (a : Word) (s : State) : Host.Outcome State Fault Refusal :=
  readMem (.abs a) 4 State.writeA s

/-- BD LDA a,X (R160). -/
def execLdaAbx (a : Word) (s : State) : Host.Outcome State Fault Refusal :=
  readMem (.abx a) 4 State.writeA s

/-- B9 LDA a,Y (R160). -/
def execLdaAby (a : Word) (s : State) : Host.Outcome State Fault Refusal :=
  readMem (.aby a) 4 State.writeA s

/-- A1 LDA (z,X) (R160). -/
def execLdaIzx (z : Byte) (s : State) : Host.Outcome State Fault Refusal :=
  readMem (.izx z) 6 State.writeA s

/-- B1 LDA (z),Y (R160). -/
def execLdaIzy (z : Byte) (s : State) : Host.Outcome State Fault Refusal :=
  readMem (.izy z) 5 State.writeA s

/-- A2 LDX #v (R161). -/
def execLdxImm (v : Byte) (s : State) : Host.Outcome State Fault Refusal :=
  readImm v State.writeX s

/-- A6 LDX z (R161). -/
def execLdxZp (z : Byte) (s : State) : Host.Outcome State Fault Refusal :=
  readMem (.zp z) 3 State.writeX s

/-- B6 LDX z,Y (R161). -/
def execLdxZpy (z : Byte) (s : State) : Host.Outcome State Fault Refusal :=
  readMem (.zpy z) 4 State.writeX s

/-- AE LDX a (R161). -/
def execLdxAbs (a : Word) (s : State) : Host.Outcome State Fault Refusal :=
  readMem (.abs a) 4 State.writeX s

/-- BE LDX a,Y (R161). -/
def execLdxAby (a : Word) (s : State) : Host.Outcome State Fault Refusal :=
  readMem (.aby a) 4 State.writeX s

/-- A0 LDY #v (R162). -/
def execLdyImm (v : Byte) (s : State) : Host.Outcome State Fault Refusal :=
  readImm v State.writeY s

/-- A4 LDY z (R162). -/
def execLdyZp (z : Byte) (s : State) : Host.Outcome State Fault Refusal :=
  readMem (.zp z) 3 State.writeY s

/-- B4 LDY z,X (R162). -/
def execLdyZpx (z : Byte) (s : State) : Host.Outcome State Fault Refusal :=
  readMem (.zpx z) 4 State.writeY s

/-- AC LDY a (R162). -/
def execLdyAbs (a : Word) (s : State) : Host.Outcome State Fault Refusal :=
  readMem (.abs a) 4 State.writeY s

/-- BC LDY a,X (R162). -/
def execLdyAbx (a : Word) (s : State) : Host.Outcome State Fault Refusal :=
  readMem (.abx a) 4 State.writeY s

/-- 85 STA z (R163). -/
def execStaZp (z : Byte) (s : State) : Host.Outcome State Fault Refusal :=
  writeMem (.zp z) 3 s.a s

/-- 95 STA z,X (R163). -/
def execStaZpx (z : Byte) (s : State) : Host.Outcome State Fault Refusal :=
  writeMem (.zpx z) 4 s.a s

/-- 8D STA a (R163). -/
def execStaAbs (a : Word) (s : State) : Host.Outcome State Fault Refusal :=
  writeMem (.abs a) 4 s.a s

/-- 9D STA a,X (R163). -/
def execStaAbx (a : Word) (s : State) : Host.Outcome State Fault Refusal :=
  writeMem (.abx a) 5 s.a s

/-- 99 STA a,Y (R163). -/
def execStaAby (a : Word) (s : State) : Host.Outcome State Fault Refusal :=
  writeMem (.aby a) 5 s.a s

/-- 81 STA (z,X) (R163). -/
def execStaIzx (z : Byte) (s : State) : Host.Outcome State Fault Refusal :=
  writeMem (.izx z) 6 s.a s

/-- 91 STA (z),Y (R163). -/
def execStaIzy (z : Byte) (s : State) : Host.Outcome State Fault Refusal :=
  writeMem (.izy z) 6 s.a s

/-- 86 STX z (R164). -/
def execStxZp (z : Byte) (s : State) : Host.Outcome State Fault Refusal :=
  writeMem (.zp z) 3 s.x s

/-- 96 STX z,Y (R164). -/
def execStxZpy (z : Byte) (s : State) : Host.Outcome State Fault Refusal :=
  writeMem (.zpy z) 4 s.x s

/-- 8E STX a (R164). -/
def execStxAbs (a : Word) (s : State) : Host.Outcome State Fault Refusal :=
  writeMem (.abs a) 4 s.x s

/-- 84 STY z (R165). -/
def execStyZp (z : Byte) (s : State) : Host.Outcome State Fault Refusal :=
  writeMem (.zp z) 3 s.y s

/-- 94 STY z,X (R165). -/
def execStyZpx (z : Byte) (s : State) : Host.Outcome State Fault Refusal :=
  writeMem (.zpx z) 4 s.y s

/-- 8C STY a (R165). -/
def execStyAbs (a : Word) (s : State) : Host.Outcome State Fault Refusal :=
  writeMem (.abs a) 4 s.y s

/-- AA TAX (R166). -/
def execTax (s : State) : Host.Outcome State Fault Refusal :=
  implied 2 (State.writeX s.a) s

/-- A8 TAY (R167). -/
def execTay (s : State) : Host.Outcome State Fault Refusal :=
  implied 2 (State.writeY s.a) s

/-- 8A TXA (R168). -/
def execTxa (s : State) : Host.Outcome State Fault Refusal :=
  implied 2 (State.writeA s.x) s

/-- 98 TYA (R169). -/
def execTya (s : State) : Host.Outcome State Fault Refusal :=
  implied 2 (State.writeA s.y) s

/-- BA TSX (R170). -/
def execTsx (s : State) : Host.Outcome State Fault Refusal :=
  implied 2 (State.writeX s.sp) s

/-- 9A TXS (R171). -/
def execTxs (s : State) : Host.Outcome State Fault Refusal :=
  implied 2 (fun t => { t with sp := t.x }) s

end Sys2Proof.Machine
end

