-- ==== Sys2Proof/Machine/ShiftRotate.lean ====
section
/-! DEFINITION. Shifts and rotates of A or of memory (43_shift_rotate.md R210 to R214). -/

namespace Sys2Proof.Machine

/-- 0A ASL A (R211). -/
def execAslAcc (s : State) : Host.Outcome State Fault Refusal :=
  modifyAcc shiftLeft s

/-- 06 ASL z (R211). -/
def execAslZp (z : Byte) (s : State) : Host.Outcome State Fault Refusal :=
  modifyMem (.zp z) 5 shiftLeft s

/-- 16 ASL z,X (R211). -/
def execAslZpx (z : Byte) (s : State) : Host.Outcome State Fault Refusal :=
  modifyMem (.zpx z) 6 shiftLeft s

/-- 0E ASL a (R211). -/
def execAslAbs (a : Word) (s : State) : Host.Outcome State Fault Refusal :=
  modifyMem (.abs a) 6 shiftLeft s

/-- 1E ASL a,X (R211). -/
def execAslAbx (a : Word) (s : State) : Host.Outcome State Fault Refusal :=
  modifyMem (.abx a) 7 shiftLeft s

/-- 4A LSR A (R212). -/
def execLsrAcc (s : State) : Host.Outcome State Fault Refusal :=
  modifyAcc shiftRight s

/-- 46 LSR z (R212). -/
def execLsrZp (z : Byte) (s : State) : Host.Outcome State Fault Refusal :=
  modifyMem (.zp z) 5 shiftRight s

/-- 56 LSR z,X (R212). -/
def execLsrZpx (z : Byte) (s : State) : Host.Outcome State Fault Refusal :=
  modifyMem (.zpx z) 6 shiftRight s

/-- 4E LSR a (R212). -/
def execLsrAbs (a : Word) (s : State) : Host.Outcome State Fault Refusal :=
  modifyMem (.abs a) 6 shiftRight s

/-- 5E LSR a,X (R212). -/
def execLsrAbx (a : Word) (s : State) : Host.Outcome State Fault Refusal :=
  modifyMem (.abx a) 7 shiftRight s

/-- 2A ROL A (R213). -/
def execRolAcc (s : State) : Host.Outcome State Fault Refusal :=
  modifyAcc rotateLeft s

/-- 26 ROL z (R213). -/
def execRolZp (z : Byte) (s : State) : Host.Outcome State Fault Refusal :=
  modifyMem (.zp z) 5 rotateLeft s

/-- 36 ROL z,X (R213). -/
def execRolZpx (z : Byte) (s : State) : Host.Outcome State Fault Refusal :=
  modifyMem (.zpx z) 6 rotateLeft s

/-- 2E ROL a (R213). -/
def execRolAbs (a : Word) (s : State) : Host.Outcome State Fault Refusal :=
  modifyMem (.abs a) 6 rotateLeft s

/-- 3E ROL a,X (R213). -/
def execRolAbx (a : Word) (s : State) : Host.Outcome State Fault Refusal :=
  modifyMem (.abx a) 7 rotateLeft s

/-- 6A ROR A (R214). -/
def execRorAcc (s : State) : Host.Outcome State Fault Refusal :=
  modifyAcc rotateRight s

/-- 66 ROR z (R214). -/
def execRorZp (z : Byte) (s : State) : Host.Outcome State Fault Refusal :=
  modifyMem (.zp z) 5 rotateRight s

/-- 76 ROR z,X (R214). -/
def execRorZpx (z : Byte) (s : State) : Host.Outcome State Fault Refusal :=
  modifyMem (.zpx z) 6 rotateRight s

/-- 6E ROR a (R214). -/
def execRorAbs (a : Word) (s : State) : Host.Outcome State Fault Refusal :=
  modifyMem (.abs a) 6 rotateRight s

/-- 7E ROR a,X (R214). -/
def execRorAbx (a : Word) (s : State) : Host.Outcome State Fault Refusal :=
  modifyMem (.abx a) 7 rotateRight s

end Sys2Proof.Machine
end

