-- ==== Sys2Proof/Machine/Stack.lean ====
section
/-! DEFINITION. Stack instructions (44_stack.md R220 to R223). -/

namespace Sys2Proof.Machine

/-- 48 PHA (R220). -/
def execPha (s : State) : Host.Outcome State Fault Refusal :=
  implied 3 (fun t => t.push t.a) s

/-- 08 PHP (R221). -/
def execPhp (s : State) : Host.Outcome State Fault Refusal :=
  implied 3 (fun t => t.push (pack t.p true)) s

/-- 68 PLA (R222). -/
def execPla (s : State) : Host.Outcome State Fault Refusal :=
  implied 4 (fun t => t.popped.writeA t.top) s

/-- 28 PLP (R223). -/
def execPlp (s : State) : Host.Outcome State Fault Refusal :=
  implied 4 (fun t => t.popped.withP (unpack t.top)) s

end Sys2Proof.Machine
end

