-- ==== Sys2Proof/Machine/Cycle.lean ====
section
/-! DEFINITION. The CPU cycle and the driver cycle (70_reset_and_hazards.md R410, R411, 60_exceptions.md R311, R329). -/

namespace Sys2Proof.Machine

/-- `Boundary()`: an NMI, else an IRQ that I does not mask, else the next instruction; the state it gives has the cost of what it
started in its remaining-cycle counter (60_exceptions.md R311 to R313). -/
def boundary (s : State) : Host.Outcome State Fault Refusal :=
  if s.nmiPending then .next (enterInterrupt s.pc false Config.nmiVector { s with nmiPending := false })
  else if s.irqLine && !s.p.i then .next (enterInterrupt s.pc false Config.irqVector s)
  else
    match fetch s with
    | .error r => .refused r
    | .ok (i, t) => exec i t

/-- The stall of an OAM DMA joins the cost of the instruction that started it (R410). -/
def chargeStall (s : State) : State :=
  { s with cyclesRemaining := s.cyclesRemaining + s.dmaStall, dmaStall := 0 }

/-- The end of a CPU cycle: the counter goes down by one, and on an instruction's last cycle the driver takes a complete frame
(R410, 60_exceptions.md R343). -/
def endCycle (s : State) : State :=
  { s with
    cyclesRemaining := s.cyclesRemaining - 1
    ppu := { s.ppu with frameComplete := s.ppu.frameComplete && !(s.cyclesRemaining - 1 == 0) } }

/-- The rest of a boundary cycle; a fatal decode error ends it at once (R410). -/
def afterBoundary (s : State) : State :=
  if s.halted then s else endCycle (chargeStall s)

/-- `CpuCycle()` of a session that is not halted (R410). -/
def cpuCycle (s : State) : Host.Outcome State Fault Refusal :=
  let t := { s with cyclesTotal := s.cyclesTotal + 1 }
  if t.cyclesRemaining = 0 then
    match boundary t with
    | .next u => .next (afterBoundary u)
    | .fault r => .fault r
    | .refused r => .refused r
  else .next (endCycle t)

/-- `DriverCycle()`: three PPU dots, then one CPU cycle (60_exceptions.md R329). A halted session takes no step: the driver surfaces
its fault (60_exceptions.md R300; log 8). -/
def driverCycle (s : State) : Host.Outcome State Fault Refusal :=
  if s.halted then .fault (.illegalOpcode s.fault) else cpuCycle (threeDots s)

end Sys2Proof.Machine
end

