-- ==== Sys2Proof/Machine/Step.lean ====
section
/-! DEFINITION. One step of the machine is one driver cycle (log 1). -/

namespace Sys2Proof.Machine

/-- One step: three PPU dots and one CPU cycle (60_exceptions.md R329). -/
def step (s : State) : Host.Outcome State Fault Refusal := driverCycle s

/-- The state with a table word's instruction placed where the next step fetches (log 7). -/
def State.withFetchWord (s : State) (nbits w : Nat) : State := placeTableWord s nbits w

end Sys2Proof.Machine
end

