-- ==== Sys2Proof/Machine/Cartridge.lean ====
section
/-! DEFINITION. Loading a cartridge image (20_memory.md R79 to R81). -/

namespace Sys2Proof.Machine

/-- Why a cartridge image cannot be loaded (20_memory.md R80). -/
inductive LoadError where
  | badMagic
  | truncated
  | unsupportedMapper (id : Nat)
  | prgBankCount (n : Nat)
  deriving DecidableEq, Repr

/-- The magic bytes of the image (20_memory.md R79). -/
def imageMagic : List Byte := [0x4E, 0x45, 0x53, 0x1A]

/-- The mapper identifier: its low nibble in byte 6, its high nibble in byte 7 (20_memory.md R79). -/
def imageMapper (image : List Byte) : Nat :=
  (image.getD 7 0).toNat / 16 * 16 + (image.getD 6 0).toNat / 16

/-- Where PRG starts: after the header, and after the trainer when there is one (20_memory.md R79). -/
def imagePrgStart (image : List Byte) : Nat :=
  if (image.getD 6 0).getLsbD 2 then 16 + 512 else 16

/-- The length of PRG in the image (20_memory.md R79). -/
def imagePrgLength (image : List Byte) : Nat := 16384 * (image.getD 4 0).toNat

/-- The length of CHR in the image (20_memory.md R79). -/
def imageChrLength (image : List Byte) : Nat := 8192 * (image.getD 5 0).toNat

/-- The cartridge of an image whose PRG has `size` (20_memory.md R79, R81). -/
def imageCartridge (image : List Byte) (size : PrgSize) : Cartridge :=
  let body := image.drop (imagePrgStart image)
  { prgSize := size
    prg := Memory.ofBytes (body.take (imagePrgLength image)) 0
    pattern := if image.getD 5 0 = 0 then .ram else .rom (image.getD 5 0).toNat
    chr := Memory.ofBytes ((body.drop (imagePrgLength image)).take (imageChrLength image)) 0
    mirroring := if (image.getD 6 0).getLsbD 0 then .vertical else .horizontal }

/-- Load an image, or report why it cannot be loaded (20_memory.md R79, R80; log 14). -/
def loadImage (image : List Byte) : Except LoadError Cartridge :=
  if image.take 4 ≠ imageMagic then .error .badMagic
  else if image.length < 16 then .error .truncated
  else if imageMapper image ≠ 0 then .error (.unsupportedMapper (imageMapper image))
  else if (image.getD 4 0).toNat ≠ 1 ∧ (image.getD 4 0).toNat ≠ 2 then .error (.prgBankCount (image.getD 4 0).toNat)
  else if image.length < imagePrgStart image + imagePrgLength image + imageChrLength image then .error .truncated
  else .ok (imageCartridge image (if (image.getD 4 0).toNat = 1 then .banks1 else .banks2))

end Sys2Proof.Machine
end

