-- ==== Sys2Proof/Machine/Reset.lean ====
section
/-! DEFINITION. The two resets (70_reset_and_hazards.md R400 to R402) and what else the host does to the machine between two driver
cycles (R403, R420). -/

namespace Sys2Proof.Machine

/-- `ResetSequence()`: SP goes down by 3, I is set, PC is loaded from the reset vector (R400). -/
def resetSequence (s : State) : State :=
  { s with sp := s.sp - 3, p := { s.p with i := true }, pc := s.vector Config.resetVector }

/-- The PPU after a warm reset: registers and timing at their reset values, its three memories kept (60_exceptions.md R348). -/
def Ppu.warmReset (p : Ppu) : Ppu :=
  { Ppu.reset with vram := p.vram, palette := p.palette, oam := p.oam }

/-- `WarmReset()` (R401). The cartridge, the host's inputs and the model's draw counters stay (log 2, log 5). -/
def warmReset (s : State) : State :=
  resetSequence
    { s with
      ppu := s.ppu.warmReset
      pads := { s.pads with strobe := false, shift0 := 0, shift1 := 0 }
      a := 0, x := 0, y := 0, sp := 0
      p := { n := false, v := false, b := false, d := false, i := false, z := false, c := false }
      pc := 0
      cyclesRemaining := 0, dmaStall := 0, cyclesTotal := 0, nmiPending := false, halted := false, fault := none }

/-- Pattern RAM is zeroed, pattern ROM stays (R400, R401). -/
def Cartridge.clearPatternRam (c : Cartridge) : Cartridge :=
  match c.pattern with
  | .rom _ => c
  | .ram => { c with chr := [] }

/-- The memories a cold reset zeroes: RAM, VRAM, OAM, palette RAM and pattern RAM (R400). -/
def clearMemories (s : State) : State :=
  { s with
    ram := []
    ppu := { s.ppu with vram := [], palette := [], oam := [] }
    cart := s.cart.clearPatternRam }

/-- `ColdReset()` (R400). -/
def coldReset (s : State) : State := warmReset (clearMemories s)

/-- What the host may do between two driver cycles (R420). -/
inductive HostAction where
  | loadCartridge (image : List Byte)
  | coldReset
  | warmReset
  | controllers (pad0 pad1 : Byte)
  | irqLine (asserted : Bool)
  deriving DecidableEq, Repr

/-- The state after a host action, or the load error it reports (R403, R420). R420 lets the host load a cartridge only before any
session and gives a later load no effect; here a load is accepted in every state, replaces the cartridge and keeps all other state
(DESIGN CHOICE, log 17). -/
def hostAction (h : HostAction) (s : State) : Except LoadError State :=
  match h with
  | .loadCartridge image =>
    match loadImage image with
    | .error e => .error e
    | .ok c => .ok { s with cart := c }
  | .coldReset => .ok (Sys2Proof.Machine.coldReset s)
  | .warmReset => .ok (Sys2Proof.Machine.warmReset s)
  | .controllers pad0 pad1 => .ok { s with pads := { s.pads with pad0 := pad0, pad1 := pad1 } }
  | .irqLine asserted => .ok { s with irqLine := asserted }

end Sys2Proof.Machine
end

