-- ==== Sys2Proof/Safety.lean ====
section
/-! DEFINITION. What a safe run is: the states the machine keeps to, and the accesses the spec gives a meaning. -/

namespace Sys2Proof.Machine

/-- The address is a PPU port that the spec gives no meaning while rendering: port 4 or port 7 (93_implementation_defined.md U4). -/
def renderingPort (a : Word) : Bool :=
  decide (0x2000 ≤ a.toNat) && decide (a.toNat ≤ 0x3FFF) && (a.toNat % 8 == 4 || a.toNat % 8 == 7)

/-- A bus read of this address has a meaning in this state. -/
def readable (a : Word) (s : State) : Bool :=
  !(s.ppu.rendering && renderingPort a)

/-- A bus write of `v` to this address has a meaning in this state; an OAM DMA reads its whole page, and pages $20-$3F hold the
ports (60_exceptions.md R363). -/
def writable (a : Word) (v : Byte) (s : State) : Bool :=
  !(s.ppu.rendering && (renderingPort a || (a == 0x4014 && decide (0x20 ≤ v.toNat) && decide (v.toNat ≤ 0x3F))))

/-- A read and then a write of this address have a meaning whatever byte is written. -/
def modifiable (a : Word) (s : State) : Bool :=
  !(s.ppu.rendering && (renderingPort a || a == 0x4014))

/-- Every memory is in canonical form and within its size (20_memory.md R65, R66, R81, 60_exceptions.md R335, R339). -/
abbrev State.memoriesOk (s : State) : Prop :=
  (s.ram.wf ∧ s.ram.within 0x800) ∧
  (s.ppu.vram.wf ∧ s.ppu.vram.within 0x800) ∧
  (s.ppu.palette.wf ∧ s.ppu.palette.within 0x20) ∧
  (s.ppu.oam.wf ∧ s.ppu.oam.within 0x100) ∧
  (s.cart.prg.wf ∧ s.cart.prg.within s.cart.prgSize.length) ∧
  (s.cart.chr.wf ∧ s.cart.chr.within s.cart.pattern.length) ∧
  0 < s.cart.pattern.length

/-- The PPU's next dot is one of a frame's dots (60_exceptions.md R341, R342). -/
abbrev Ppu.positionOk (p : Ppu) : Prop :=
  p.scanline ≤ 261 ∧ p.dot ≤ 340 ∧ ¬(p.frame % 2 = 1 ∧ p.scanline = 261 ∧ p.dot = 339)

/-- The VBlank flag is set only from the dot after (241, 1) to (261, 1) (60_exceptions.md R344, R345). -/
abbrev Ppu.vblankOk (p : Ppu) : Prop :=
  p.vblank = true → (p.scanline = 241 ∧ 2 ≤ p.dot) ∨ (242 ≤ p.scanline ∧ p.scanline ≤ 260) ∨ (p.scanline = 261 ∧ p.dot ≤ 1)

/-- From the dot after (261, 1) to (0, 0) both sprite flags are false (60_exceptions.md R346). -/
abbrev Ppu.spritesOk (p : Ppu) : Prop :=
  (p.scanline = 261 ∧ 2 ≤ p.dot) ∨ (p.scanline = 0 ∧ p.dot = 0) → p.sprite0Hit = false ∧ p.spriteOverflow = false

/-- The halted flag and its record agree, the record names an undefined opcode, and no DMA stall is left between cycles
(60_exceptions.md R300, 70_reset_and_hazards.md R410). -/
abbrev State.controlOk (s : State) : Prop :=
  s.halted = s.fault.isSome ∧ s.fault.all (fun r => undefinedOpcodes.contains r.2) = true ∧ s.dmaStall = 0

/-- The invariant of the machine between two steps. -/
abbrev State.Inv (s : State) : Prop :=
  s.memoriesOk ∧ s.ppu.positionOk ∧ s.ppu.vblankOk ∧ s.ppu.spritesOk ∧ s.controlOk

/-- A safe state: the session runs, and no port access of the next step can be refused, since rendering is off. -/
abbrev State.Running (s : State) : Prop :=
  s.halted = false ∧ s.ppu.mask.getLsbD 3 = false ∧ s.ppu.mask.getLsbD 4 = false

/-- The base cost of each opcode, by high nibble and low nibble; 0 stands for an undefined opcode (70_reset_and_hazards.md R413). -/
def costRowsLow : List (List Nat) :=
  [[7, 6, 0, 0, 0, 3, 5, 0, 3, 2, 2, 0, 0, 4, 6, 0],
   [2, 5, 0, 0, 0, 4, 6, 0, 2, 4, 0, 0, 0, 4, 7, 0],
   [6, 6, 0, 0, 3, 3, 5, 0, 4, 2, 2, 0, 4, 4, 6, 0],
   [2, 5, 0, 0, 0, 4, 6, 0, 2, 4, 0, 0, 0, 4, 7, 0],
   [6, 6, 0, 0, 0, 3, 5, 0, 3, 2, 2, 0, 3, 4, 6, 0],
   [2, 5, 0, 0, 0, 4, 6, 0, 2, 4, 0, 0, 0, 4, 7, 0],
   [6, 6, 0, 0, 0, 3, 5, 0, 4, 2, 2, 0, 5, 4, 6, 0],
   [2, 5, 0, 0, 0, 4, 6, 0, 2, 4, 0, 0, 0, 4, 7, 0]]

/-- The second half of R413's table. -/
def costRowsHigh : List (List Nat) :=
  [[0, 6, 0, 0, 3, 3, 3, 0, 2, 0, 2, 0, 4, 4, 4, 0],
   [2, 6, 0, 0, 4, 4, 4, 0, 2, 5, 2, 0, 0, 5, 0, 0],
   [2, 6, 2, 0, 3, 3, 3, 0, 2, 2, 2, 0, 4, 4, 4, 0],
   [2, 5, 0, 0, 4, 4, 4, 0, 2, 4, 2, 0, 4, 4, 4, 0],
   [2, 6, 0, 0, 3, 3, 5, 0, 2, 2, 2, 0, 4, 4, 6, 0],
   [2, 5, 0, 0, 0, 4, 6, 0, 2, 4, 0, 0, 0, 4, 7, 0],
   [2, 6, 0, 0, 3, 3, 5, 0, 2, 2, 2, 0, 4, 4, 6, 0],
   [2, 5, 0, 0, 0, 4, 6, 0, 2, 4, 0, 0, 0, 4, 7, 0]]

/-- `base(op)` (70_reset_and_hazards.md R413). -/
def tableCost (op : Byte) : Nat :=
  ((costRowsLow ++ costRowsHigh).getD (op.toNat / 16) []).getD (op.toNat % 16) 0

end Sys2Proof.Machine
end

