-- ==== Sys2Proof/Certificates/Slice0/Obligations.lean ====
section
/-! DEFINITION. The statements for the provers: what the spec's rules say of the model. Each docstring names the rules. The first
part gives the words the statements share, written from the rules and not from the meanings they speak of. -/

namespace Sys2Proof.Claims

open Sys2Proof.Machine

/-- Bits 7..0 of an address (00_scope.md R7). -/
def lo (a : Word) : Byte := BitVec.ofNat 8 (a.toNat % 256)

/-- Bits 15..8 of an address (00_scope.md R7). -/
def hi (a : Word) : Byte := BitVec.ofNat 8 (a.toNat / 256)

/-- `hi:lo` (00_scope.md R7). -/
def word (lo hi : Byte) : Word := BitVec.ofNat 16 (hi.toNat * 256 + lo.toNat)

/-- `setNZ` (00_scope.md R8). -/
def nz (p : Status) (r : Byte) : Status := { p with n := decide (128 ≤ r.toNat), z := decide (r.toNat = 0) }

/-- `pack(P, b)` (10_state.md R35). -/
def packed (p : Status) (b : Bool) : Byte :=
  BitVec.ofNat 8 (128 * p.n.toNat + 64 * p.v.toNat + 32 + 16 * b.toNat + 8 * p.d.toNat + 4 * p.i.toNat + 2 * p.z.toNat + p.c.toNat)

/-- Bit `k` of a byte. -/
def bitOf (k : Nat) (m : Byte) : Bool := decide (m.toNat / 2 ^ k % 2 = 1)

/-- The flags of a pulled byte (10_state.md R36). -/
def unpacked (m : Byte) : Status :=
  { n := bitOf 7 m, v := bitOf 6 m, b := bitOf 4 m, d := bitOf 3 m, i := bitOf 2 m, z := bitOf 1 m, c := bitOf 0 m }

/-- The stack address `$0100 | SP` (00_scope.md R9). -/
def stackAddr (sp : Byte) : Word := BitVec.ofNat 16 (0x100 + sp.toNat)

/-- A state with PC behind the instruction's bytes and with its cost (00_scope.md R11). -/
def past (s : State) (bytes : List Byte) (cost : Nat) (t : State) : State :=
  { t with pc := s.pc + BitVec.ofNat 16 bytes.length, cyclesRemaining := cost }

/-- The instruction has these bytes, needs no memory operand and completes in every state with this effect. -/
def ImpliedForm (i : Instr) (bytes : List Byte) (cost : Nat) (effect : State → State) : Prop :=
  encode i = bytes ∧ ∀ s, exec i s = .next (past s bytes cost (effect s))

/-- The immediate form: it completes in every state, in 2 cycles, with the operand byte (40_addressing.md R133). -/
def ImmForm (i : Instr) (bytes : List Byte) (v : Byte) (effect : Byte → State → State) : Prop :=
  encode i = bytes ∧ ∀ s, exec i s = .next (past s bytes 2 (effect v s))

/-- A read-class form: wherever its address may be read, it completes with the byte the bus answers there, and pays one cycle more
for a page crossing (40_addressing.md R144, R146, 70_reset_and_hazards.md R412). -/
def ReadForm (i : Instr) (bytes : List Byte) (m : MemMode) (base : Nat) (effect : Byte → State → State) : Prop :=
  encode i = bytes ∧ ∀ s, readable (effectiveAddress m s) s = true →
    ∃ v t, memRead (effectiveAddress m s) s = .ok (v, t) ∧
      exec i s = .next (past s bytes (base + if pageCrossed m s then 1 else 0) (effect v t))

/-- A write-class form: wherever its address may be written, it completes with one bus write there (40_addressing.md R144). -/
def WriteForm (i : Instr) (bytes : List Byte) (m : MemMode) (base : Nat) (value : State → Byte) : Prop :=
  encode i = bytes ∧ ∀ s, writable (effectiveAddress m s) (value s) s = true →
    ∃ t, memWrite (effectiveAddress m s) (value s) s = .ok t ∧ exec i s = .next (past s bytes base t)

/-- A read-modify-write form: one bus read, then one bus write of the result, and the flags (40_addressing.md R144,
43_shift_rotate.md R210). -/
def ModifyForm (i : Instr) (bytes : List Byte) (m : MemMode) (base : Nat) (f : Byte → Status → Byte × Status) : Prop :=
  encode i = bytes ∧ ∀ s, modifiable (effectiveAddress m s) s = true →
    ∃ v t u, memRead (effectiveAddress m s) s = .ok (v, t) ∧ memWrite (effectiveAddress m s) (f v s.p).1 t = .ok u ∧
      exec i s = .next (past s bytes base { u with p := (f v s.p).2 })

/-- The accumulator form of a shift or rotate (43_shift_rotate.md R210). -/
def AccForm (i : Instr) (bytes : List Byte) (f : Byte → Status → Byte × Status) : Prop :=
  encode i = bytes ∧ ∀ s, exec i s = .next (past s bytes 2 { s with a := (f s.a s.p).1, p := (f s.a s.p).2 })

/-- LDA's effect (R160). -/
def loadA (m : Byte) (s : State) : State := { s with a := m, p := nz s.p m }

/-- LDX's effect (R161). -/
def loadX (m : Byte) (s : State) : State := { s with x := m, p := nz s.p m }

/-- LDY's effect (R162). -/
def loadY (m : Byte) (s : State) : State := { s with y := m, p := nz s.p m }

/-- `AddWithCarry` into A with V from the sign bits (42_arith_logic.md R180). -/
def addToA (m : Byte) (s : State) : State :=
  let sum := s.a.toNat + m.toNat + s.p.c.toNat
  let r : Byte := BitVec.ofNat 8 (sum % 256)
  { s with
    a := r
    p := nz { s.p with
      c := decide (255 < sum)
      v := decide (s.a.toNat / 128 = m.toNat / 128 ∧ s.a.toNat / 128 ≠ r.toNat / 128) } r }

/-- SBC adds the complement of the operand (R182). -/
def subFromA (m : Byte) (s : State) : State := addToA (BitVec.ofNat 8 (255 - m.toNat)) s

/-- `Compare(r, m)` (R196). -/
def compared (r m : Byte) (s : State) : State :=
  { s with p := { s.p with
      c := decide (m.toNat ≤ r.toNat), z := decide (r = m), n := decide (128 ≤ (r.toNat + 256 - m.toNat) % 256) } }

/-- BIT's effect (R189). -/
def bitTested (m : Byte) (s : State) : State :=
  { s with p := { s.p with z := decide ((s.a &&& m).toNat = 0), n := bitOf 7 m, v := bitOf 6 m } }

/-- INC on a byte (R190). -/
def incremented (m : Byte) (p : Status) : Byte × Status :=
  let r : Byte := BitVec.ofNat 8 ((m.toNat + 1) % 256)
  (r, nz p r)

/-- DEC on a byte (R191). -/
def decremented (m : Byte) (p : Status) : Byte × Status :=
  let r : Byte := BitVec.ofNat 8 ((m.toNat + 255) % 256)
  (r, nz p r)

/-- ASL on a byte (43_shift_rotate.md R211). -/
def asl (v : Byte) (p : Status) : Byte × Status :=
  let r : Byte := BitVec.ofNat 8 (v.toNat * 2 % 256)
  (r, nz { p with c := bitOf 7 v } r)

/-- LSR on a byte (R212). -/
def lsr (v : Byte) (p : Status) : Byte × Status :=
  let r : Byte := BitVec.ofNat 8 (v.toNat / 2)
  (r, nz { p with c := bitOf 0 v } r)

/-- ROL on a byte (R213). -/
def rol (v : Byte) (p : Status) : Byte × Status :=
  let r : Byte := BitVec.ofNat 8 ((v.toNat * 2 + p.c.toNat) % 256)
  (r, nz { p with c := bitOf 7 v } r)

/-- ROR on a byte (R214). -/
def ror (v : Byte) (p : Status) : Byte × Status :=
  let r : Byte := BitVec.ofNat 8 (v.toNat / 2 + 128 * p.c.toNat)
  (r, nz { p with c := bitOf 0 v } r)

/-- The target of a branch: the signed offset from the next instruction (40_addressing.md R143). -/
def target (s : State) (off : Byte) : Word := BitVec.ofInt 16 (s.pc.toNat + 2 + off.toInt)

/-- A branch with its condition completes in every state: to the target when it holds, else past its two bytes, and the cost has one
cycle for a taken branch and one more for another page (45_control.md R233, 70_reset_and_hazards.md R412). -/
def BranchForm (i : Instr) (bytes : List Byte) (off : Byte) (cond : State → Bool) : Prop :=
  encode i = bytes ∧ ∀ s,
    (cond s = true → exec i s = .next { s with
      pc := target s off
      cyclesRemaining := if (s.pc + 2).toNat / 256 = (target s off).toNat / 256 then 3 else 4 }) ∧
    (cond s = false → exec i s = .next { s with pc := s.pc + 2, cyclesRemaining := 2 })

/-- `t` is `s` after `EnterInterrupt(ret, b, vector)`: three bus writes down the stack, I set, PC from two bus reads of the vector
(60_exceptions.md R310). -/
def Entered (ret : Word) (b : Bool) (vector : Word) (s t : State) : Prop :=
  ∃ s1 s2 s3 vlo vhi,
    memWrite (stackAddr s.sp) (hi ret) s = .ok s1 ∧
    memWrite (stackAddr (s.sp - 1)) (lo ret) s1 = .ok s2 ∧
    memWrite (stackAddr (s.sp - 2)) (packed s.p b) s2 = .ok s3 ∧
    memRead vector s3 = .ok (vlo, s3) ∧ memRead (vector + 1) s3 = .ok (vhi, s3) ∧
    t = { s3 with sp := s.sp - 3, p := { s.p with i := true }, pc := word vlo vhi, cyclesRemaining := 7 }

/-- The byte of plain memory at a bus address: RAM or program ROM (20_memory.md R65, R66). -/
def plainByte (s : State) (a : Word) : Option Byte :=
  if a.toNat < 0x2000 then some (s.ram.get (a.toNat % 2048))
  else if 0x8000 ≤ a.toNat then some (s.cart.prg.get ((a.toNat - 0x8000) % s.cart.prgSize.length))
  else none

/-- The address reaches PPU port `k`, through $2000-$2007 or any mirror (20_memory.md R62, 60_exceptions.md R330). -/
def atPort (k : Nat) (a : Word) : Prop := 0x2000 ≤ a.toNat ∧ a.toNat < 0x4000 ∧ a.toNat % 8 = k

/-- Which byte of which PPU memory a 14-bit address names: 0 the pattern data, 1 VRAM, 2 the palette (60_exceptions.md R339). -/
def ppuCell (s : State) (a : Nat) : Nat × Nat :=
  if a < 0x2000 then (0, a % s.cart.pattern.length)
  else if a < 0x3F00 then
    (1, (match s.cart.mirroring with | .horizontal => a / 1024 % 4 / 2 | .vertical => a / 1024 % 4 % 2) * 1024 + a % 1024)
  else (2, if 16 ≤ a % 32 ∧ a % 4 = 0 then a % 32 - 16 else a % 32)

/-- The mnemonics whose rules write memory (40_addressing.md R144, 44_stack.md R220, R221, 45_control.md R231, R242). -/
def storing : List Mnemonic := [.sta, .stx, .sty, .asl, .lsr, .rol, .ror, .inc, .dec, .pha, .php, .jsr, .brk]

/-- The operand form of an instruction that stores at its effective address (write and read-modify-write classes, R144). -/
def storeForm : Instr → Option MemMode
  | .staZp z => some (.zp z)
  | .staZpx z => some (.zpx z)
  | .staAbs a => some (.abs a)
  | .staAbx a => some (.abx a)
  | .staAby a => some (.aby a)
  | .staIzx z => some (.izx z)
  | .staIzy z => some (.izy z)
  | .stxZp z => some (.zp z)
  | .stxZpy z => some (.zpy z)
  | .stxAbs a => some (.abs a)
  | .styZp z => some (.zp z)
  | .styZpx z => some (.zpx z)
  | .styAbs a => some (.abs a)
  | .incZp z => some (.zp z)
  | .incZpx z => some (.zpx z)
  | .incAbs a => some (.abs a)
  | .incAbx a => some (.abx a)
  | .decZp z => some (.zp z)
  | .decZpx z => some (.zpx z)
  | .decAbs a => some (.abs a)
  | .decAbx a => some (.abx a)
  | .aslZp z => some (.zp z)
  | .aslZpx z => some (.zpx z)
  | .aslAbs a => some (.abs a)
  | .aslAbx a => some (.abx a)
  | .lsrZp z => some (.zp z)
  | .lsrZpx z => some (.zpx z)
  | .lsrAbs a => some (.abs a)
  | .lsrAbx a => some (.abx a)
  | .rolZp z => some (.zp z)
  | .rolZpx z => some (.zpx z)
  | .rolAbs a => some (.abs a)
  | .rolAbx a => some (.abx a)
  | .rorZp z => some (.zp z)
  | .rorZpx z => some (.zpx z)
  | .rorAbs a => some (.abs a)
  | .rorAbx a => some (.abx a)
  | _ => none

/-- The operand form of an instruction that reads a byte at its effective address and writes none (the read class, R144). -/
def readForm : Instr → Option MemMode
  | .ldaZp z => some (.zp z)
  | .ldaZpx z => some (.zpx z)
  | .ldaAbs a => some (.abs a)
  | .ldaAbx a => some (.abx a)
  | .ldaAby a => some (.aby a)
  | .ldaIzx z => some (.izx z)
  | .ldaIzy z => some (.izy z)
  | .ldxZp z => some (.zp z)
  | .ldxZpy z => some (.zpy z)
  | .ldxAbs a => some (.abs a)
  | .ldxAby a => some (.aby a)
  | .ldyZp z => some (.zp z)
  | .ldyZpx z => some (.zpx z)
  | .ldyAbs a => some (.abs a)
  | .ldyAbx a => some (.abx a)
  | .adcZp z => some (.zp z)
  | .adcZpx z => some (.zpx z)
  | .adcAbs a => some (.abs a)
  | .adcAbx a => some (.abx a)
  | .adcAby a => some (.aby a)
  | .adcIzx z => some (.izx z)
  | .adcIzy z => some (.izy z)
  | .sbcZp z => some (.zp z)
  | .sbcZpx z => some (.zpx z)
  | .sbcAbs a => some (.abs a)
  | .sbcAbx a => some (.abx a)
  | .sbcAby a => some (.aby a)
  | .sbcIzx z => some (.izx z)
  | .sbcIzy z => some (.izy z)
  | .andZp z => some (.zp z)
  | .andZpx z => some (.zpx z)
  | .andAbs a => some (.abs a)
  | .andAbx a => some (.abx a)
  | .andAby a => some (.aby a)
  | .andIzx z => some (.izx z)
  | .andIzy z => some (.izy z)
  | .oraZp z => some (.zp z)
  | .oraZpx z => some (.zpx z)
  | .oraAbs a => some (.abs a)
  | .oraAbx a => some (.abx a)
  | .oraAby a => some (.aby a)
  | .oraIzx z => some (.izx z)
  | .oraIzy z => some (.izy z)
  | .eorZp z => some (.zp z)
  | .eorZpx z => some (.zpx z)
  | .eorAbs a => some (.abs a)
  | .eorAbx a => some (.abx a)
  | .eorAby a => some (.aby a)
  | .eorIzx z => some (.izx z)
  | .eorIzy z => some (.izy z)
  | .cmpZp z => some (.zp z)
  | .cmpZpx z => some (.zpx z)
  | .cmpAbs a => some (.abs a)
  | .cmpAbx a => some (.abx a)
  | .cmpAby a => some (.aby a)
  | .cmpIzx z => some (.izx z)
  | .cmpIzy z => some (.izy z)
  | .cpxZp z => some (.zp z)
  | .cpxAbs a => some (.abs a)
  | .cpyZp z => some (.zp z)
  | .cpyAbs a => some (.abs a)
  | .bitZp z => some (.zp z)
  | .bitAbs a => some (.abs a)
  | _ => none

/-- The opcode byte of an instruction. -/
def opcodeOf (i : Instr) : Byte := (encode i).headD 0

/-- The state a boundary works on: three PPU dots on, and the cycle counted (60_exceptions.md R329, 70_reset_and_hazards.md R410). -/
def atBoundary (s : State) : State := { threeDots s with cyclesTotal := (threeDots s).cyclesTotal + 1 }

/-- The state after a boundary cycle that started something of the cost in the counter (70_reset_and_hazards.md R410). -/
def cycleEnd (t : State) : State :=
  let n := t.cyclesRemaining + t.dmaStall - 1
  { t with cyclesRemaining := n, dmaStall := 0, ppu := { t.ppu with frameComplete := t.ppu.frameComplete && decide (n ≠ 0) } }

/-- No interrupt is taken in this state (60_exceptions.md R311). -/
def noInterrupt (s : State) : Prop := s.nmiPending = false ∧ (s.irqLine = false ∨ s.p.i = true)

/-- The dot before which a frame's 262 scanlines of 341 dots begin. -/
def frameStart (s : State) : Prop := s.ppu.scanline = 0 ∧ s.ppu.dot = 0

/-- Rendering is enabled, by mask bit 3 or 4, and the PPU is on a visible or the pre-render scanline (60_exceptions.md R335, R338,
93_implementation_defined.md U4). -/
def renders (s : State) : Prop :=
  (bitOf 3 s.ppu.mask = true ∨ bitOf 4 s.ppu.mask = true) ∧ (s.ppu.scanline ≤ 239 ∨ s.ppu.scanline = 261)

/-- The address reaches PPU port `k`, and that is the OAM data port or the data port (93_implementation_defined.md U4). -/
def dataPort (k : Nat) (a : Word) : Prop := (k = 4 ∨ k = 7) ∧ atPort k a

/-- The byte a store form writes when its effective address is $4014, where a read is a draw (60_exceptions.md R360, R361). -/
def dmaPage (i : Instr) (s : State) : Byte :=
  let m := Config.openBus s.openDraws 0x4014
  match i.mnemonic with
  | .sta => s.a
  | .stx => s.x
  | .sty => s.y
  | .inc => (incremented m s.p).1
  | .dec => (decremented m s.p).1
  | .asl => (asl m s.p).1
  | .lsr => (lsr m s.p).1
  | .rol => (rol m s.p).1
  | .ror => (ror m s.p).1
  | _ => 0

/-- The instruction accesses this bus address: its effective address, a pointer byte of the indirect jump, or a byte of the page that
its write to $4014 copies (40_addressing.md R145, 60_exceptions.md R363). The stack, pointers in page 0 and vectors are left out:
they lie in RAM and program ROM. -/
def Reaches (i : Instr) (s : State) (a : Word) : Prop :=
  (∃ m, (readForm i = some m ∨ storeForm i = some m) ∧ a = effectiveAddress m s) ∨
  (∃ m k, storeForm i = some m ∧ effectiveAddress m s = 0x4014 ∧ a = word k (dmaPage i s)) ∨
  (∃ p, i = .jmpInd p ∧ (a = p ∨ a = word (lo (p + 1)) (hi p)))

/-- The first `n` bytes of an OAM DMA from page `d`, one bus read each, in order (60_exceptions.md R363). -/
def copied (d : Byte) : Nat → State → Except Refusal State
  | 0, s => .ok s
  | n + 1, s =>
    match copied d n s with
    | .error r => .error r
    | .ok t =>
      match memRead (BitVec.ofNat 16 (d.toNat * 256 + n)) t with
      | .error r => .error r
      | .ok (v, u) => .ok { u with ppu := { u.ppu with oam := u.ppu.oam.set ((s.ppu.oamAddr.toNat + n) % 256) v } }

/-- `t` is `s` but for what `n` dots change: the status flags, the PPU's position and frame, the NMI, and the model's own count of dots
(60_exceptions.md R341, R343 to R346; log 3). -/
def OnlyDots (n : Nat) (s t : State) : Prop :=
  t = { s with
    ppu := { s.ppu with
      vblank := t.ppu.vblank, sprite0Hit := t.ppu.sprite0Hit, spriteOverflow := t.ppu.spriteOverflow
      scanline := t.ppu.scanline, dot := t.ppu.dot, frame := t.ppu.frame, frameComplete := t.ppu.frameComplete }
    nmiPending := t.nmiPending
    dotDraws := s.dotDraws + n }

/-- `n` bus reads of one address (60_exceptions.md R364). -/
def readTimes (a : Word) : Nat → State → Except Refusal State
  | 0, s => .ok s
  | n + 1, s =>
    match memRead a s with
    | .ok (_, t) => readTimes a n t
    | .error r => .error r

/-- An iNES image's byte (20_memory.md R79). -/
def imageByte (image : List Byte) (k : Nat) : Nat := (image.getD k 0).toNat

/-- Where PRG starts in an image (20_memory.md R79). -/
def prgStart (image : List Byte) : Nat := if imageByte image 6 / 4 % 2 = 1 then 528 else 16

end Sys2Proof.Claims

open Sys2Proof Sys2Proof.Machine Sys2Proof.Claims

/-- LDA, LDX and LDY in every operand form (41_load_store_transfer.md R160 to R162). -/
def Obligations.LoadsPutTheOperandInARegister : Prop :=
  (∀ v, ImmForm (.ldaImm v) [0xA9, v] v loadA) ∧
  (∀ z, ReadForm (.ldaZp z) [0xA5, z] (.zp z) 3 loadA) ∧
  (∀ z, ReadForm (.ldaZpx z) [0xB5, z] (.zpx z) 4 loadA) ∧
  (∀ a, ReadForm (.ldaAbs a) [0xAD, lo a, hi a] (.abs a) 4 loadA) ∧
  (∀ a, ReadForm (.ldaAbx a) [0xBD, lo a, hi a] (.abx a) 4 loadA) ∧
  (∀ a, ReadForm (.ldaAby a) [0xB9, lo a, hi a] (.aby a) 4 loadA) ∧
  (∀ z, ReadForm (.ldaIzx z) [0xA1, z] (.izx z) 6 loadA) ∧
  (∀ z, ReadForm (.ldaIzy z) [0xB1, z] (.izy z) 5 loadA) ∧
  (∀ v, ImmForm (.ldxImm v) [0xA2, v] v loadX) ∧
  (∀ z, ReadForm (.ldxZp z) [0xA6, z] (.zp z) 3 loadX) ∧
  (∀ z, ReadForm (.ldxZpy z) [0xB6, z] (.zpy z) 4 loadX) ∧
  (∀ a, ReadForm (.ldxAbs a) [0xAE, lo a, hi a] (.abs a) 4 loadX) ∧
  (∀ a, ReadForm (.ldxAby a) [0xBE, lo a, hi a] (.aby a) 4 loadX) ∧
  (∀ v, ImmForm (.ldyImm v) [0xA0, v] v loadY) ∧
  (∀ z, ReadForm (.ldyZp z) [0xA4, z] (.zp z) 3 loadY) ∧
  (∀ z, ReadForm (.ldyZpx z) [0xB4, z] (.zpx z) 4 loadY) ∧
  (∀ a, ReadForm (.ldyAbs a) [0xAC, lo a, hi a] (.abs a) 4 loadY) ∧
  (∀ a, ReadForm (.ldyAbx a) [0xBC, lo a, hi a] (.abx a) 4 loadY)

/-- STA, STX and STY in every operand form (41_load_store_transfer.md R163 to R165). -/
def Obligations.StoresWriteTheRegister : Prop :=
  (∀ z, WriteForm (.staZp z) [0x85, z] (.zp z) 3 (fun s => s.a)) ∧
  (∀ z, WriteForm (.staZpx z) [0x95, z] (.zpx z) 4 (fun s => s.a)) ∧
  (∀ a, WriteForm (.staAbs a) [0x8D, lo a, hi a] (.abs a) 4 (fun s => s.a)) ∧
  (∀ a, WriteForm (.staAbx a) [0x9D, lo a, hi a] (.abx a) 5 (fun s => s.a)) ∧
  (∀ a, WriteForm (.staAby a) [0x99, lo a, hi a] (.aby a) 5 (fun s => s.a)) ∧
  (∀ z, WriteForm (.staIzx z) [0x81, z] (.izx z) 6 (fun s => s.a)) ∧
  (∀ z, WriteForm (.staIzy z) [0x91, z] (.izy z) 6 (fun s => s.a)) ∧
  (∀ z, WriteForm (.stxZp z) [0x86, z] (.zp z) 3 (fun s => s.x)) ∧
  (∀ z, WriteForm (.stxZpy z) [0x96, z] (.zpy z) 4 (fun s => s.x)) ∧
  (∀ a, WriteForm (.stxAbs a) [0x8E, lo a, hi a] (.abs a) 4 (fun s => s.x)) ∧
  (∀ z, WriteForm (.styZp z) [0x84, z] (.zp z) 3 (fun s => s.y)) ∧
  (∀ z, WriteForm (.styZpx z) [0x94, z] (.zpx z) 4 (fun s => s.y)) ∧
  (∀ a, WriteForm (.styAbs a) [0x8C, lo a, hi a] (.abs a) 4 (fun s => s.y))

/-- TAX, TAY, TXA, TYA, TSX and TXS (41_load_store_transfer.md R166 to R171). -/
def Obligations.TransfersCopyRegisters : Prop :=
  ImpliedForm .tax [0xAA] 2 (fun s => loadX s.a s) ∧
  ImpliedForm .tay [0xA8] 2 (fun s => loadY s.a s) ∧
  ImpliedForm .txa [0x8A] 2 (fun s => loadA s.x s) ∧
  ImpliedForm .tya [0x98] 2 (fun s => loadA s.y s) ∧
  ImpliedForm .tsx [0xBA] 2 (fun s => loadX s.sp s) ∧
  ImpliedForm .txs [0x9A] 2 (fun s => { s with sp := s.x })

/-- ADC and SBC in every operand form (42_arith_logic.md R181, R182). -/
def Obligations.AdcAndSbcAddWithCarry : Prop :=
  (∀ v, ImmForm (.adcImm v) [0x69, v] v addToA) ∧
  (∀ z, ReadForm (.adcZp z) [0x65, z] (.zp z) 3 addToA) ∧
  (∀ z, ReadForm (.adcZpx z) [0x75, z] (.zpx z) 4 addToA) ∧
  (∀ a, ReadForm (.adcAbs a) [0x6D, lo a, hi a] (.abs a) 4 addToA) ∧
  (∀ a, ReadForm (.adcAbx a) [0x7D, lo a, hi a] (.abx a) 4 addToA) ∧
  (∀ a, ReadForm (.adcAby a) [0x79, lo a, hi a] (.aby a) 4 addToA) ∧
  (∀ z, ReadForm (.adcIzx z) [0x61, z] (.izx z) 6 addToA) ∧
  (∀ z, ReadForm (.adcIzy z) [0x71, z] (.izy z) 5 addToA) ∧
  (∀ v, ImmForm (.sbcImm v) [0xE9, v] v subFromA) ∧
  (∀ z, ReadForm (.sbcZp z) [0xE5, z] (.zp z) 3 subFromA) ∧
  (∀ z, ReadForm (.sbcZpx z) [0xF5, z] (.zpx z) 4 subFromA) ∧
  (∀ a, ReadForm (.sbcAbs a) [0xED, lo a, hi a] (.abs a) 4 subFromA) ∧
  (∀ a, ReadForm (.sbcAbx a) [0xFD, lo a, hi a] (.abx a) 4 subFromA) ∧
  (∀ a, ReadForm (.sbcAby a) [0xF9, lo a, hi a] (.aby a) 4 subFromA) ∧
  (∀ z, ReadForm (.sbcIzx z) [0xE1, z] (.izx z) 6 subFromA) ∧
  (∀ z, ReadForm (.sbcIzy z) [0xF1, z] (.izy z) 5 subFromA)

/-- AND, ORA and EOR in every operand form (42_arith_logic.md R183 to R185). -/
def Obligations.LogicCombinesIntoA : Prop :=
  (∀ v, ImmForm (.andImm v) [0x29, v] v (fun m s => loadA (s.a &&& m) s)) ∧
  (∀ z, ReadForm (.andZp z) [0x25, z] (.zp z) 3 (fun m s => loadA (s.a &&& m) s)) ∧
  (∀ z, ReadForm (.andZpx z) [0x35, z] (.zpx z) 4 (fun m s => loadA (s.a &&& m) s)) ∧
  (∀ a, ReadForm (.andAbs a) [0x2D, lo a, hi a] (.abs a) 4 (fun m s => loadA (s.a &&& m) s)) ∧
  (∀ a, ReadForm (.andAbx a) [0x3D, lo a, hi a] (.abx a) 4 (fun m s => loadA (s.a &&& m) s)) ∧
  (∀ a, ReadForm (.andAby a) [0x39, lo a, hi a] (.aby a) 4 (fun m s => loadA (s.a &&& m) s)) ∧
  (∀ z, ReadForm (.andIzx z) [0x21, z] (.izx z) 6 (fun m s => loadA (s.a &&& m) s)) ∧
  (∀ z, ReadForm (.andIzy z) [0x31, z] (.izy z) 5 (fun m s => loadA (s.a &&& m) s)) ∧
  (∀ v, ImmForm (.oraImm v) [0x09, v] v (fun m s => loadA (s.a ||| m) s)) ∧
  (∀ z, ReadForm (.oraZp z) [0x05, z] (.zp z) 3 (fun m s => loadA (s.a ||| m) s)) ∧
  (∀ z, ReadForm (.oraZpx z) [0x15, z] (.zpx z) 4 (fun m s => loadA (s.a ||| m) s)) ∧
  (∀ a, ReadForm (.oraAbs a) [0x0D, lo a, hi a] (.abs a) 4 (fun m s => loadA (s.a ||| m) s)) ∧
  (∀ a, ReadForm (.oraAbx a) [0x1D, lo a, hi a] (.abx a) 4 (fun m s => loadA (s.a ||| m) s)) ∧
  (∀ a, ReadForm (.oraAby a) [0x19, lo a, hi a] (.aby a) 4 (fun m s => loadA (s.a ||| m) s)) ∧
  (∀ z, ReadForm (.oraIzx z) [0x01, z] (.izx z) 6 (fun m s => loadA (s.a ||| m) s)) ∧
  (∀ z, ReadForm (.oraIzy z) [0x11, z] (.izy z) 5 (fun m s => loadA (s.a ||| m) s)) ∧
  (∀ v, ImmForm (.eorImm v) [0x49, v] v (fun m s => loadA (s.a ^^^ m) s)) ∧
  (∀ z, ReadForm (.eorZp z) [0x45, z] (.zp z) 3 (fun m s => loadA (s.a ^^^ m) s)) ∧
  (∀ z, ReadForm (.eorZpx z) [0x55, z] (.zpx z) 4 (fun m s => loadA (s.a ^^^ m) s)) ∧
  (∀ a, ReadForm (.eorAbs a) [0x4D, lo a, hi a] (.abs a) 4 (fun m s => loadA (s.a ^^^ m) s)) ∧
  (∀ a, ReadForm (.eorAbx a) [0x5D, lo a, hi a] (.abx a) 4 (fun m s => loadA (s.a ^^^ m) s)) ∧
  (∀ a, ReadForm (.eorAby a) [0x59, lo a, hi a] (.aby a) 4 (fun m s => loadA (s.a ^^^ m) s)) ∧
  (∀ z, ReadForm (.eorIzx z) [0x41, z] (.izx z) 6 (fun m s => loadA (s.a ^^^ m) s)) ∧
  (∀ z, ReadForm (.eorIzy z) [0x51, z] (.izy z) 5 (fun m s => loadA (s.a ^^^ m) s))

/-- CMP, CPX, CPY and BIT in every operand form (42_arith_logic.md R186 to R189, R196). -/
def Obligations.ComparesAndBitWriteFlagsOnly : Prop :=
  (∀ v, ImmForm (.cmpImm v) [0xC9, v] v (fun m s => compared s.a m s)) ∧
  (∀ z, ReadForm (.cmpZp z) [0xC5, z] (.zp z) 3 (fun m s => compared s.a m s)) ∧
  (∀ z, ReadForm (.cmpZpx z) [0xD5, z] (.zpx z) 4 (fun m s => compared s.a m s)) ∧
  (∀ a, ReadForm (.cmpAbs a) [0xCD, lo a, hi a] (.abs a) 4 (fun m s => compared s.a m s)) ∧
  (∀ a, ReadForm (.cmpAbx a) [0xDD, lo a, hi a] (.abx a) 4 (fun m s => compared s.a m s)) ∧
  (∀ a, ReadForm (.cmpAby a) [0xD9, lo a, hi a] (.aby a) 4 (fun m s => compared s.a m s)) ∧
  (∀ z, ReadForm (.cmpIzx z) [0xC1, z] (.izx z) 6 (fun m s => compared s.a m s)) ∧
  (∀ z, ReadForm (.cmpIzy z) [0xD1, z] (.izy z) 5 (fun m s => compared s.a m s)) ∧
  (∀ v, ImmForm (.cpxImm v) [0xE0, v] v (fun m s => compared s.x m s)) ∧
  (∀ z, ReadForm (.cpxZp z) [0xE4, z] (.zp z) 3 (fun m s => compared s.x m s)) ∧
  (∀ a, ReadForm (.cpxAbs a) [0xEC, lo a, hi a] (.abs a) 4 (fun m s => compared s.x m s)) ∧
  (∀ v, ImmForm (.cpyImm v) [0xC0, v] v (fun m s => compared s.y m s)) ∧
  (∀ z, ReadForm (.cpyZp z) [0xC4, z] (.zp z) 3 (fun m s => compared s.y m s)) ∧
  (∀ a, ReadForm (.cpyAbs a) [0xCC, lo a, hi a] (.abs a) 4 (fun m s => compared s.y m s)) ∧
  (∀ z, ReadForm (.bitZp z) [0x24, z] (.zp z) 3 bitTested) ∧
  (∀ a, ReadForm (.bitAbs a) [0x2C, lo a, hi a] (.abs a) 4 bitTested)

/-- INC and DEC in every operand form (42_arith_logic.md R190, R191). -/
def Obligations.IncDecChangeMemory : Prop :=
  (∀ z, ModifyForm (.incZp z) [0xE6, z] (.zp z) 5 incremented) ∧
  (∀ z, ModifyForm (.incZpx z) [0xF6, z] (.zpx z) 6 incremented) ∧
  (∀ a, ModifyForm (.incAbs a) [0xEE, lo a, hi a] (.abs a) 6 incremented) ∧
  (∀ a, ModifyForm (.incAbx a) [0xFE, lo a, hi a] (.abx a) 7 incremented) ∧
  (∀ z, ModifyForm (.decZp z) [0xC6, z] (.zp z) 5 decremented) ∧
  (∀ z, ModifyForm (.decZpx z) [0xD6, z] (.zpx z) 6 decremented) ∧
  (∀ a, ModifyForm (.decAbs a) [0xCE, lo a, hi a] (.abs a) 6 decremented) ∧
  (∀ a, ModifyForm (.decAbx a) [0xDE, lo a, hi a] (.abx a) 7 decremented)

/-- INX, INY, DEX and DEY (42_arith_logic.md R192 to R195). -/
def Obligations.IncDecChangeIndexRegisters : Prop :=
  ImpliedForm .inx [0xE8] 2 (fun s => loadX (incremented s.x s.p).1 s) ∧
  ImpliedForm .iny [0xC8] 2 (fun s => loadY (incremented s.y s.p).1 s) ∧
  ImpliedForm .dex [0xCA] 2 (fun s => loadX (decremented s.x s.p).1 s) ∧
  ImpliedForm .dey [0x88] 2 (fun s => loadY (decremented s.y s.p).1 s)

/-- ASL, LSR, ROL and ROR on A and on memory (43_shift_rotate.md R210 to R214). -/
def Obligations.ShiftsAndRotatesMoveOneBit : Prop :=
  AccForm .aslAcc [0x0A] asl ∧
  (∀ z, ModifyForm (.aslZp z) [0x06, z] (.zp z) 5 asl) ∧
  (∀ z, ModifyForm (.aslZpx z) [0x16, z] (.zpx z) 6 asl) ∧
  (∀ a, ModifyForm (.aslAbs a) [0x0E, lo a, hi a] (.abs a) 6 asl) ∧
  (∀ a, ModifyForm (.aslAbx a) [0x1E, lo a, hi a] (.abx a) 7 asl) ∧
  AccForm .lsrAcc [0x4A] lsr ∧
  (∀ z, ModifyForm (.lsrZp z) [0x46, z] (.zp z) 5 lsr) ∧
  (∀ z, ModifyForm (.lsrZpx z) [0x56, z] (.zpx z) 6 lsr) ∧
  (∀ a, ModifyForm (.lsrAbs a) [0x4E, lo a, hi a] (.abs a) 6 lsr) ∧
  (∀ a, ModifyForm (.lsrAbx a) [0x5E, lo a, hi a] (.abx a) 7 lsr) ∧
  AccForm .rolAcc [0x2A] rol ∧
  (∀ z, ModifyForm (.rolZp z) [0x26, z] (.zp z) 5 rol) ∧
  (∀ z, ModifyForm (.rolZpx z) [0x36, z] (.zpx z) 6 rol) ∧
  (∀ a, ModifyForm (.rolAbs a) [0x2E, lo a, hi a] (.abs a) 6 rol) ∧
  (∀ a, ModifyForm (.rolAbx a) [0x3E, lo a, hi a] (.abx a) 7 rol) ∧
  AccForm .rorAcc [0x6A] ror ∧
  (∀ z, ModifyForm (.rorZp z) [0x66, z] (.zp z) 5 ror) ∧
  (∀ z, ModifyForm (.rorZpx z) [0x76, z] (.zpx z) 6 ror) ∧
  (∀ a, ModifyForm (.rorAbs a) [0x6E, lo a, hi a] (.abs a) 6 ror) ∧
  (∀ a, ModifyForm (.rorAbx a) [0x7E, lo a, hi a] (.abx a) 7 ror)

/-- PHA, PHP, PLA and PLP (44_stack.md R220 to R223). -/
def Obligations.PushesAndPullsUseTheStackPage : Prop :=
  (encode .pha = [0x48] ∧ ∀ s, ∃ t, memWrite (stackAddr s.sp) s.a s = .ok t ∧
    exec .pha s = .next (past s [0x48] 3 { t with sp := s.sp - 1 })) ∧
  (encode .php = [0x08] ∧ ∀ s, ∃ t, memWrite (stackAddr s.sp) (packed s.p true) s = .ok t ∧
    exec .php s = .next (past s [0x08] 3 { t with sp := s.sp - 1 })) ∧
  (encode .pla = [0x68] ∧ ∀ s, ∃ m, memRead (stackAddr (s.sp + 1)) s = .ok (m, s) ∧
    exec .pla s = .next (past s [0x68] 4 { loadA m s with sp := s.sp + 1 })) ∧
  (encode .plp = [0x28] ∧ ∀ s, ∃ m, memRead (stackAddr (s.sp + 1)) s = .ok (m, s) ∧
    exec .plp s = .next (past s [0x28] 4 { s with p := unpacked m, sp := s.sp + 1 }))

/-- JMP in both operand forms (45_control.md R230, 40_addressing.md R140). -/
def Obligations.JumpsSetThePc : Prop :=
  (∀ a, encode (.jmpAbs a) = [0x4C, lo a, hi a] ∧
    ∀ s, exec (.jmpAbs a) s = .next { s with pc := a, cyclesRemaining := 3 }) ∧
  (∀ a, encode (.jmpInd a) = [0x6C, lo a, hi a] ∧
    ∀ s, readable a s = true → readable (word (lo (a + 1)) (hi a)) s = true →
      ∃ vlo vhi t u, memRead a s = .ok (vlo, t) ∧ memRead (word (lo (a + 1)) (hi a)) t = .ok (vhi, u) ∧
        exec (.jmpInd a) s = .next { u with pc := word vlo vhi, cyclesRemaining := 5 })

/-- JSR and RTS (45_control.md R231, R232). -/
def Obligations.JsrPushesAndRtsReturns : Prop :=
  (∀ a, encode (.jsrAbs a) = [0x20, lo a, hi a] ∧ ∀ s, ∃ t u,
    memWrite (stackAddr s.sp) (hi (s.pc + 2)) s = .ok t ∧ memWrite (stackAddr (s.sp - 1)) (lo (s.pc + 2)) t = .ok u ∧
    exec (.jsrAbs a) s = .next { u with sp := s.sp - 2, pc := a, cyclesRemaining := 6 }) ∧
  (encode .rts = [0x60] ∧ ∀ s, ∃ vlo vhi,
    memRead (stackAddr (s.sp + 1)) s = .ok (vlo, s) ∧ memRead (stackAddr (s.sp + 2)) s = .ok (vhi, s) ∧
    exec .rts s = .next { s with sp := s.sp + 2, pc := word vlo vhi + 1, cyclesRemaining := 6 })

/-- The eight conditional branches (45_control.md R233 to R241, 40_addressing.md R143). -/
def Obligations.BranchesFollowTheirFlag : Prop :=
  (∀ off, BranchForm (.bcc off) [0x90, off] off (fun s => !s.p.c)) ∧
  (∀ off, BranchForm (.bcs off) [0xB0, off] off (fun s => s.p.c)) ∧
  (∀ off, BranchForm (.beq off) [0xF0, off] off (fun s => s.p.z)) ∧
  (∀ off, BranchForm (.bmi off) [0x30, off] off (fun s => s.p.n)) ∧
  (∀ off, BranchForm (.bne off) [0xD0, off] off (fun s => !s.p.z)) ∧
  (∀ off, BranchForm (.bpl off) [0x10, off] off (fun s => !s.p.n)) ∧
  (∀ off, BranchForm (.bvc off) [0x50, off] off (fun s => !s.p.v)) ∧
  (∀ off, BranchForm (.bvs off) [0x70, off] off (fun s => s.p.v))

/-- BRK (45_control.md R242, 60_exceptions.md R310). That its encoding writes the unread padding byte as $00 is the model's choice
(log 10). -/
def Obligations.BrkEntersThroughTheIrqVector : Prop :=
  encode .brk = [0x00, 0x00] ∧ ∀ s, ∃ t, Entered (s.pc + 2) true 0xFFFE s t ∧ exec .brk s = .next t

/-- RTI (45_control.md R243). -/
def Obligations.RtiRestoresStatusAndPc : Prop :=
  encode .rti = [0x40] ∧ ∀ s, ∃ m vlo vhi,
    memRead (stackAddr (s.sp + 1)) s = .ok (m, s) ∧ memRead (stackAddr (s.sp + 2)) s = .ok (vlo, s) ∧
    memRead (stackAddr (s.sp + 3)) s = .ok (vhi, s) ∧
    exec .rti s = .next { s with p := unpacked m, sp := s.sp + 3, pc := word vlo vhi, cyclesRemaining := 6 }

/-- The flag instructions and NOP (46_flags_misc.md R260 to R267). -/
def Obligations.FlagInstructionsWriteOneFlag : Prop :=
  ImpliedForm .clc [0x18] 2 (fun s => { s with p := { s.p with c := false } }) ∧
  ImpliedForm .cld [0xD8] 2 (fun s => { s with p := { s.p with d := false } }) ∧
  ImpliedForm .cli [0x58] 2 (fun s => { s with p := { s.p with i := false } }) ∧
  ImpliedForm .clv [0xB8] 2 (fun s => { s with p := { s.p with v := false } }) ∧
  ImpliedForm .sec [0x38] 2 (fun s => { s with p := { s.p with c := true } }) ∧
  ImpliedForm .sed [0xF8] 2 (fun s => { s with p := { s.p with d := true } }) ∧
  ImpliedForm .sei [0x78] 2 (fun s => { s with p := { s.p with i := true } }) ∧
  ImpliedForm .nop [0xEA] 2 (fun s => s)

/-- An undefined opcode halts, and a halted session takes no step (60_exceptions.md R300). That the error is a next state and the
fault comes with the step after it is the model's reading (log 8), and that exec does the same for an opcode byte outside R106's list,
which the decoder never gives, is its choice (log 15). -/
def Obligations.UndefinedOpcodeHaltsTheSession : Prop :=
  (∀ op s, exec (.illegal op) s = .next { s with halted := true, fault := some (s.pc, op) }) ∧
  (∀ s op u, s.halted = false → s.cyclesRemaining = 0 → noInterrupt (atBoundary s) →
    memRead s.pc (atBoundary s) = .ok (op, u) → undefinedOpcodes.contains op = true →
    step s = .next { u with halted := true, fault := some (s.pc, op) }) ∧
  (∀ s, s.halted = true → step s = .fault (.illegalOpcode s.fault))

/-- The zero-page and absolute forms (40_addressing.md R134 to R136, R138, R139). -/
def Obligations.DirectFormsComputeTheirAddress : Prop :=
  ∀ s z a,
    (effectiveAddress (.zp z) s).toNat = z.toNat ∧
    (effectiveAddress (.zpx z) s).toNat = (z.toNat + s.x.toNat) % 256 ∧
    (effectiveAddress (.zpy z) s).toNat = (z.toNat + s.y.toNat) % 256 ∧
    pageCrossed (.zp z) s = false ∧ pageCrossed (.zpx z) s = false ∧ pageCrossed (.zpy z) s = false ∧
    effectiveAddress (.abs a) s = a ∧ pageCrossed (.abs a) s = false ∧
    (effectiveAddress (.abx a) s).toNat = (a.toNat + s.x.toNat) % 65536 ∧
    (pageCrossed (.abx a) s = true ↔ a.toNat / 256 ≠ (a.toNat + s.x.toNat) % 65536 / 256) ∧
    (effectiveAddress (.aby a) s).toNat = (a.toNat + s.y.toNat) % 65536 ∧
    (pageCrossed (.aby a) s = true ↔ a.toNat / 256 ≠ (a.toNat + s.y.toNat) % 65536 / 256)

/-- The indexed indirect and indirect indexed forms (40_addressing.md R141, R142). -/
def Obligations.IndirectFormsReadPointersInPageZero : Prop :=
  ∀ s z,
    (∃ vlo vhi,
      memRead (BitVec.ofNat 16 ((z.toNat + s.x.toNat) % 256)) s = .ok (vlo, s) ∧
      memRead (BitVec.ofNat 16 ((z.toNat + s.x.toNat + 1) % 256)) s = .ok (vhi, s) ∧
      effectiveAddress (.izx z) s = word vlo vhi ∧ pageCrossed (.izx z) s = false) ∧
    (∃ vlo vhi,
      memRead (BitVec.ofNat 16 z.toNat) s = .ok (vlo, s) ∧
      memRead (BitVec.ofNat 16 ((z.toNat + 1) % 256)) s = .ok (vhi, s) ∧
      (effectiveAddress (.izy z) s).toNat = ((word vlo vhi).toNat + s.y.toNat) % 65536 ∧
      (pageCrossed (.izy z) s = true ↔
        (word vlo vhi).toNat / 256 ≠ ((word vlo vhi).toNat + s.y.toNat) % 65536 / 256))

/-- The adder's carry and overflow (42_arith_logic.md R180). -/
def Obligations.AdderOverflowIsSignedRange : Prop :=
  ∀ (a m : Byte) (c : Bool),
    (sumResult a m c).toNat = (a.toNat + m.toNat + c.toNat) % 256 ∧
    (sumCarry a m c = true ↔ 255 < a.toNat + m.toNat + c.toNat) ∧
    (sumOverflow a m c = true ↔ a.toInt + m.toInt + c.toNat < -128 ∨ 127 < a.toInt + m.toInt + c.toNat)

/-- The internal RAM and its mirrors (20_memory.md R65). -/
def Obligations.RamIsMirroredEveryTwoKib : Prop :=
  ∀ s (a b : Word) v, s.ram.wf → a.toNat < 0x2000 → b.toNat < 0x2000 →
    memRead b s = .ok (s.ram.get (b.toNat % 2048), s) ∧
    (∃ t, memWrite a v s = .ok t ∧ t = { s with ram := t.ram } ∧
      memRead b t = .ok (if b.toNat % 2048 = a.toNat % 2048 then v else s.ram.get (b.toNat % 2048), t)) ∧
    (coldReset s).ram.get (a.toNat % 2048) = 0 ∧ (warmReset s).ram = s.ram

/-- The cartridge region (20_memory.md R66, R67). The draw's form and the count openDraws are the
model's own choice (log 2). -/
def Obligations.CartridgeRegionReadsRomOrADraw : Prop :=
  (∀ s (a : Word) v, 0x8000 ≤ a.toNat →
    memRead a s = .ok (s.cart.prg.get ((a.toNat - 0x8000) % match s.cart.prgSize with | .banks1 => 16384 | .banks2 => 32768), s) ∧
    memWrite a v s = .ok s) ∧
  (∀ s (a : Word) v, 0x4020 ≤ a.toNat → a.toNat < 0x8000 →
    memRead a s = .ok (Config.openBus s.openDraws a, { s with openDraws := s.openDraws + 1 }) ∧ memWrite a v s = .ok s)

/-- The status port and its mirrors (60_exceptions.md R333). The draw's form and the count openDraws are the
model's own choice (log 2). -/
def Obligations.StatusReadClearsVblankAndLatch : Prop :=
  ∀ s a, atPort 2 a →
    ∃ r, memRead a s = .ok (r, { s with ppu := { s.ppu with vblank := false, w := false }, openDraws := s.openDraws + 1 }) ∧
      r.toNat = 128 * s.ppu.vblank.toNat + 64 * s.ppu.sprite0Hit.toNat + 32 * s.ppu.spriteOverflow.toNat +
        (Config.openBus s.openDraws 0x2002).toNat % 32

/-- Writes during the warm-up (60_exceptions.md R340). -/
def Obligations.WarmupIgnoresFourPorts : Prop :=
  (∀ s (a : Word) d, 0x2000 ≤ a.toNat → a.toNat < 0x4000 → s.cyclesTotal < s.warmupCycles →
    (a.toNat % 8 = 0 ∨ a.toNat % 8 = 1 ∨ a.toNat % 8 = 5 ∨ a.toNat % 8 = 6 → memWrite a d s = .ok s) ∧
    (a.toNat % 8 = 3 ∨ a.toNat % 8 = 4 ∨ a.toNat % 8 = 7 → ∀ n, memWrite a d { s with warmupCycles := n } =
      match memWrite a d s with | .ok t => .ok { t with warmupCycles := n } | .error r => .error r)) ∧
  (∀ s, (coldReset s).cyclesTotal = 0 ∧ (warmReset s).cyclesTotal = 0)

/-- The control, mask, OAM address and status ports on a write after the warm-up (60_exceptions.md R332, R334, R335). -/
def Obligations.ControlWriteSetsNametableBits : Prop :=
  ∀ s d, s.warmupCycles ≤ s.cyclesTotal →
    (∀ a, atPort 0 a → ∃ t, memWrite a d s = .ok { s with ppu := { s.ppu with ctrl := d, t := t } } ∧
      t.toNat % 1024 = s.ppu.t.toNat % 1024 ∧ t.toNat / 1024 % 4 = d.toNat % 4 ∧ t.toNat / 4096 = s.ppu.t.toNat / 4096) ∧
    (∀ a, atPort 1 a → memWrite a d s = .ok { s with ppu := { s.ppu with mask := d } }) ∧
    (∀ a, atPort 2 a → memWrite a d s = .ok s) ∧
    (∀ a, atPort 3 a → memWrite a d s = .ok { s with ppu := { s.ppu with oamAddr := d } })

/-- The scroll and address ports (60_exceptions.md R336, R337). -/
def Obligations.ScrollAndAddressTakeTwoWrites : Prop :=
  ∀ s d, s.warmupCycles ≤ s.cyclesTotal →
    (∀ a, atPort 5 a → ∃ u, memWrite a d s = .ok (s.withPpu u) ∧
      (s.ppu.w = false → ∃ t, u = { s.ppu with t := t, fineX := BitVec.ofNat 3 (d.toNat % 8), w := true } ∧
        t.toNat = s.ppu.t.toNat / 32 * 32 + d.toNat / 8) ∧
      (s.ppu.w = true → ∃ t, u = { s.ppu with t := t, w := false } ∧
        t.toNat = d.toNat % 8 * 4096 + s.ppu.t.toNat / 1024 % 4 * 1024 + d.toNat / 8 * 32 + s.ppu.t.toNat % 32)) ∧
    (∀ a, atPort 6 a → ∃ u, memWrite a d s = .ok (s.withPpu u) ∧
      (s.ppu.w = false → ∃ t, u = { s.ppu with t := t, w := true } ∧ t.toNat = d.toNat % 64 * 256 + s.ppu.t.toNat % 256) ∧
      (s.ppu.w = true → ∃ t, u = { s.ppu with t := t, v := t, w := false } ∧ t.toNat = s.ppu.t.toNat / 256 * 256 + d.toNat))

/-- The data port (60_exceptions.md R338). -/
def Obligations.DataPortDelaysReadsAndAdvances : Prop :=
  ∀ s d q, atPort 7 q → let a := s.ppu.v.toNat % 16384
    let next : BitVec 15 := BitVec.ofNat 15 (s.ppu.v.toNat + if bitOf 2 s.ppu.ctrl then 32 else 1)
    (renders s →
      memRead q s = .error (.portWhileRendering 7) ∧ memWrite q d s = .error (.portWhileRendering 7)) ∧
    (¬renders s →
      (a < 0x3F00 → memRead q s =
        .ok (s.ppu.readBuffer, { s with ppu := { s.ppu with readBuffer := ppuMemRead a s, v := next } })) ∧
      (0x3F00 ≤ a → memRead q s =
        .ok (ppuMemRead a s, { s with ppu := { s.ppu with readBuffer := ppuMemRead (a - 0x1000) s, v := next } })) ∧
      memWrite q d s = .ok ((ppuMemWrite a d s).withPpu { (ppuMemWrite a d s).ppu with v := next }))

/-- The PPU memory map (60_exceptions.md R339). -/
def Obligations.PpuMemoryMapMirrors : Prop :=
  ∀ s a,
    (a < 0x2000 → ppuMemRead a s = s.cart.chr.get (a % s.cart.pattern.length)) ∧
    (0x2000 ≤ a → a < 0x3000 →
      (s.cart.mirroring = .horizontal → ppuMemRead a s = s.ppu.vram.get (a / 1024 % 4 / 2 * 1024 + a % 1024)) ∧
      (s.cart.mirroring = .vertical → ppuMemRead a s = s.ppu.vram.get (a / 1024 % 4 % 2 * 1024 + a % 1024))) ∧
    (0x3000 ≤ a → a < 0x3F00 → ppuMemRead a s = ppuMemRead (a - 0x1000) s) ∧
    (0x3F00 ≤ a → a < 0x4000 → ppuMemRead a s = s.ppu.palette.get
      (if a % 32 = 16 ∨ a % 32 = 20 ∨ a % 32 = 24 ∨ a % 32 = 28 then a % 32 - 16 else a % 32)) ∧
    (a < 0x4000 → s.memoriesOk → ∀ d b, b < 0x4000 → ppuMemRead b (ppuMemWrite a d s) =
      if ppuCell s b = ppuCell s a ∧ ¬(a < 0x2000 ∧ s.cart.pattern ≠ .ram) then d else ppuMemRead b s)

/-- The OAM data port (60_exceptions.md R335). The refusal's name is the model's (log 9). -/
def Obligations.OamPortsReadAndWriteOam : Prop :=
  ∀ s d q, atPort 4 q → s.ppu.oam.wf →
    (renders s →
      memRead q s = .error (.portWhileRendering 4) ∧ memWrite q d s = .error (.portWhileRendering 4)) ∧
    (¬renders s →
      memRead q s = .ok (s.ppu.oam.get s.ppu.oamAddr.toNat, s) ∧
      ∃ o, memWrite q d s =
          .ok { s with ppu := { s.ppu with oam := o, oamAddr := BitVec.ofNat 8 ((s.ppu.oamAddr.toNat + 1) % 256) } } ∧
        ∀ k, Memory.get o k = if k = s.ppu.oamAddr.toNat then d else s.ppu.oam.get k)

/-- OAM DMA from every page (60_exceptions.md R363). The draw's form and the count openDraws are the model's own choice (log 2), the
parity is read as log 12 says, and the refusal as log 9 says. -/
def Obligations.OamDmaCopiesAPage : Prop :=
  (∀ s (d : Byte), memWrite 0x4014 d s = match copied d 256 s with
    | .ok t => .ok { t with dmaStall := if s.cyclesTotal % 2 = 1 then 514 else 513 }
    | .error r => .error r) ∧
  (∀ s (d : Byte), ¬(renders s ∧ 0x20 ≤ d.toNat ∧ d.toNat < 0x40) → ∃ t, memWrite 0x4014 d s = .ok t ∧
    t = { s with
      ppu := { s.ppu with vblank := t.ppu.vblank, w := t.ppu.w, v := t.ppu.v, readBuffer := t.ppu.readBuffer, oam := t.ppu.oam }
      pads := { s.pads with shift0 := t.pads.shift0, shift1 := t.pads.shift1 }
      openDraws := t.openDraws
      dmaStall := if s.cyclesTotal % 2 = 1 then 514 else 513 }) ∧
  (∀ s (d : Byte), renders s → 0x20 ≤ d.toNat → d.toNat < 0x40 → memWrite 0x4014 d s = .error (.portWhileRendering 4)) ∧
  (∀ s (d : Byte), s.ppu.oam.wf → d.toNat < 0x20 ∨ 0x80 ≤ d.toNat →
    ∃ o, memWrite 0x4014 d s =
        .ok { s with ppu := { s.ppu with oam := o }, dmaStall := if s.cyclesTotal % 2 = 1 then 514 else 513 } ∧
      ∀ i, i < 256 → plainByte s (BitVec.ofNat 16 (d.toNat * 256 + i)) =
        some (Memory.get o ((s.ppu.oamAddr.toNat + i) % 256))) ∧
  (∀ s (d : Byte), s.ppu.oam.wf → 0x41 ≤ d.toNat → d.toNat < 0x80 →
    ∃ o, memWrite 0x4014 d s =
        .ok { s with
          ppu := { s.ppu with oam := o }, openDraws := s.openDraws + 256
          dmaStall := if s.cyclesTotal % 2 = 1 then 514 else 513 } ∧
      ∀ i, i < 256 → Memory.get o ((s.ppu.oamAddr.toNat + i) % 256) =
        Config.openBus (s.openDraws + i) (BitVec.ofNat 16 (d.toNat * 256 + i)))

/-- The controllers (60_exceptions.md R364). The draw's form and the count openDraws are the model's own choice (log 2), and
so is that a reset keeps the host's button bytes (log 5). -/
def Obligations.ControllersShiftOutButtons : Prop :=
  (∀ s d, memWrite 0x4016 d s = .ok (
    if bitOf 0 d then { s with pads := { s.pads with strobe := true, shift0 := s.pads.pad0, shift1 := s.pads.pad1 } }
    else { s with pads := { s.pads with strobe := false } })) ∧
  (∀ s, ∃ r k, memRead 0x4016 s = .ok (r, { s with pads := k, openDraws := s.openDraws + 1 }) ∧
    r.toNat = (Config.openBus s.openDraws 0x4016).toNat / 32 * 32 +
      (if s.pads.strobe then s.pads.pad0.toNat % 2 else s.pads.shift0.toNat % 2) ∧
    k = if s.pads.strobe then s.pads else { s.pads with shift0 := BitVec.ofNat 8 (s.pads.shift0.toNat / 2 + 128) }) ∧
  (∀ s, ∃ r k, memRead 0x4017 s = .ok (r, { s with pads := k, openDraws := s.openDraws + 1 }) ∧
    r.toNat = (Config.openBus s.openDraws 0x4017).toNat / 32 * 32 +
      (if s.pads.strobe then s.pads.pad1.toNat % 2 else s.pads.shift1.toNat % 2) ∧
    k = if s.pads.strobe then s.pads else { s.pads with shift1 := BitVec.ofNat 8 (s.pads.shift1.toNat / 2 + 128) }) ∧
  (∀ s, s.pads.strobe = false → (∃ t, readTimes 0x4016 8 s = .ok t ∧ t.pads.strobe = false ∧ t.pads.shift0 = 0xFF) ∧
    ∃ t, readTimes 0x4017 8 s = .ok t ∧ t.pads.strobe = false ∧ t.pads.shift1 = 0xFF) ∧
  (∀ s, let r := coldReset s; let w := warmReset s
    r.pads = { s.pads with strobe := false, shift0 := 0, shift1 := 0 } ∧ w.pads = r.pads)

/-- APU registers and write-only ports (60_exceptions.md R331, R360 to R362). The draw's form and the count openDraws are the
model's own choice (log 2). -/
def Obligations.ApuAndPortDrawsHaveNoEffect : Prop :=
  (∀ s (a : Word) d, 0x4000 ≤ a.toNat → a.toNat < 0x4020 →
    (a ≠ 0x4014 → a ≠ 0x4016 → memWrite a d s = .ok s) ∧
    (a ≠ 0x4016 → a ≠ 0x4017 →
      memRead a s = .ok (Config.openBus s.openDraws a, { s with openDraws := s.openDraws + 1 }))) ∧
  (∀ s (a : Word), 0x2000 ≤ a.toNat → a.toNat < 0x4000 → a.toNat % 8 ≠ 2 → a.toNat % 8 ≠ 4 → a.toNat % 8 ≠ 7 →
    memRead a s = .ok (Config.openBus s.openDraws (BitVec.ofNat 16 (0x2000 + a.toNat % 8)),
      { s with openDraws := s.openDraws + 1 }))

/-- The dot sequence and the frame of a dot (60_exceptions.md R341, R343). The count of dots is the model's own (log 3), and
that dots leave v, t and fine_x unchanged while rendering too is its choice (log 11), since the spec leaves the pixel pipeline out. -/
def Obligations.PpuStepAdvancesOneDot : Prop :=
  (∀ s, OnlyDots 1 s (ppuStep s)) ∧ (∀ s, threeDots s = ppuStep (ppuStep (ppuStep s)) ∧ OnlyDots 3 s (threeDots s)) ∧
  ∀ s, s.ppu.positionOk →
    let q := (ppuStep s).ppu
    let last := s.ppu.dot = 340
    (last → s.ppu.scanline < 261 → q.dot = 0 ∧ q.scanline = s.ppu.scanline + 1 ∧ q.frame = s.ppu.frame ∧
      q.frameComplete = s.ppu.frameComplete) ∧
    (last → s.ppu.scanline = 261 → q.dot = 0 ∧ q.scanline = 0 ∧ q.frame = s.ppu.frame + 1 ∧ q.frameComplete = true) ∧
    (¬last → q.scanline = s.ppu.scanline ∧ q.frame = s.ppu.frame ∧ q.frameComplete = s.ppu.frameComplete ∧
      q.dot = if s.ppu.frame % 2 = 1 ∧ s.ppu.scanline = 261 ∧ s.ppu.dot = 338 then 340 else s.ppu.dot + 1)

/-- The dot count of a frame (60_exceptions.md R342). -/
def Obligations.FramesHaveTheirDotCounts : Prop :=
  (∀ s, frameStart s →
    let n := if s.ppu.frame % 2 = 1 then 89341 else 89342
    (∀ k, k < n → (ppuStep^[k] s).ppu.frame = s.ppu.frame) ∧
    frameStart (ppuStep^[n] s) ∧ (ppuStep^[n] s).ppu.frame = s.ppu.frame + 1 ∧ (ppuStep^[n] s).ppu.frameComplete = true) ∧
  ∀ s, (ppuStep s).ppu.dot =
    if s.ppu.dot = 340 then 0 else if s.ppu.frame % 2 = 1 ∧ s.ppu.scanline = 261 ∧ s.ppu.dot = 338 then 340 else s.ppu.dot + 1

/-- Vertical-blank entry is the only source of NMI (60_exceptions.md R344, R345). -/
def Obligations.VblankEntryAssertsNmi : Prop :=
  (∀ s, s.ppu.scanline = 241 → s.ppu.dot = 1 →
    (ppuStep s).ppu.vblank = true ∧ (ppuStep s).nmiPending = (s.nmiPending || bitOf 7 s.ppu.ctrl)) ∧
  (∀ s, ¬(s.ppu.scanline = 241 ∧ s.ppu.dot = 1) → (ppuStep s).nmiPending = s.nmiPending ∧
    (¬(s.ppu.scanline = 261 ∧ s.ppu.dot = 1) → (ppuStep s).ppu.vblank = s.ppu.vblank)) ∧
  (∀ s, s.ppu.scanline = 261 → s.ppu.dot = 1 →
    (ppuStep s).ppu.vblank = false ∧ (ppuStep s).ppu.sprite0Hit = false ∧ (ppuStep s).ppu.spriteOverflow = false) ∧
  (∀ i s t, exec i s = .next t → t.nmiPending = s.nmiPending) ∧
  (∀ s t, step s = .next t → t.nmiPending = true → (threeDots s).nmiPending = true)

/-- The constraint on the sprite flags (60_exceptions.md R346), whatever the model's draws of log 3 are. -/
def Obligations.SpriteFlagsNeedRendering : Prop :=
  ∀ s, let q := (ppuStep s).ppu
    (¬(s.ppu.scanline = 261 ∧ s.ppu.dot = 1) →
      (s.ppu.sprite0Hit = true → q.sprite0Hit = true) ∧ (s.ppu.spriteOverflow = true → q.spriteOverflow = true)) ∧
    (bitOf 3 s.ppu.mask = false ∨ bitOf 4 s.ppu.mask = false → q.sprite0Hit = true → s.ppu.sprite0Hit = true) ∧
    (bitOf 3 s.ppu.mask = false ∧ bitOf 4 s.ppu.mask = false → q.spriteOverflow = true → s.ppu.spriteOverflow = true) ∧
    ((s.ppu.scanline = 261 ∧ 1 ≤ s.ppu.dot) ∨ (s.ppu.scanline = 0 ∧ s.ppu.dot = 0) →
      (q.sprite0Hit = true → s.ppu.sprite0Hit = true) ∧ (q.spriteOverflow = true → s.ppu.spriteOverflow = true))

/-- NMI at a boundary (60_exceptions.md R311, R312). -/
def Obligations.NmiIsTakenAtABoundary : Prop :=
  (∀ s, s.halted = false → s.cyclesRemaining = 0 → (threeDots s).nmiPending = true →
    ∃ t, Entered s.pc false 0xFFFA { atBoundary s with nmiPending := false } t ∧ step s = .next (cycleEnd t)) ∧
  (∀ s, (ppuStep s).nmiPending = (s.nmiPending || decide (s.ppu.scanline = 241 ∧ s.ppu.dot = 1) && bitOf 7 s.ppu.ctrl)) ∧
  (∀ i s t, exec i s = .next t → t.nmiPending = s.nmiPending)

/-- IRQ at a boundary (60_exceptions.md R311, R313). -/
def Obligations.IrqIsTakenOnlyWhenIIsClear : Prop :=
  (∀ s, s.halted = false → s.cyclesRemaining = 0 → (threeDots s).nmiPending = false → s.irqLine = true →
    (s.p.i = false → ∃ t, Entered s.pc false 0xFFFE (atBoundary s) t ∧ step s = .next (cycleEnd t) ∧ (cycleEnd t).irqLine = true ∧
      (cycleEnd t).p.i = true) ∧
    (s.p.i = true → ∀ i u t, fetch (atBoundary s) = .ok (i, u) → exec i u = .next t →
      step s = .next (if t.halted then t else cycleEnd t))) ∧
  (∀ s t, step s = .next t → t.irqLine = s.irqLine) ∧ State.reset.irqLine = false

/-- A cycle inside an instruction (70_reset_and_hazards.md R410). -/
def Obligations.CyclesBetweenBoundariesOnlyCount : Prop :=
  ∀ s n, s.halted = false → s.cyclesRemaining = n + 1 →
    step s = .next { atBoundary s with
      cyclesRemaining := n
      ppu := { (threeDots s).ppu with frameComplete := (threeDots s).ppu.frameComplete && decide (n ≠ 0) } }

/-- A step at a boundary with no interrupt runs the fetched instruction (70_reset_and_hazards.md R410, R411). That an undefined opcode
gives a halted next state is the model's reading (log 8). -/
def Obligations.StepRunsTheDecodedInstruction : Prop :=
  ∀ s i u, s.halted = false → s.cyclesRemaining = 0 → noInterrupt (atBoundary s) → fetch (atBoundary s) = .ok (i, u) →
    step s = match exec i u with
      | .next t => .next (if t.halted then t else cycleEnd t)
      | .fault r => .fault r
      | .refused r => .refused r

/-- Fetching from plain memory (70_reset_and_hazards.md R411, 30_encoding.md R101). BRK's padding byte is not read, so nothing is
asked of it. -/
def Obligations.FetchReadsTheInstructionBytes : Prop :=
  ∀ s i, i.wellFormed = true →
    (∀ k (h : k < (encode i).length), ¬(i = .brk ∧ k = 1) →
      plainByte s (s.pc + BitVec.ofNat 16 k) = some (encode i)[k]) → fetch s = .ok (i, s)

/-- The placed word is what the next step fetches. How a word is placed is the model's choice (log 7). -/
def Obligations.PlacedWordIsFetchedNext : Prop :=
  ∀ (s : State) (nbits w : Nat) (i : Instr), s.memoriesOk → decodeTableWord nbits w = some i →
    let r := s.withFetchWord nbits w
    r.halted = false ∧ r.cyclesRemaining = 0 ∧ noInterrupt (atBoundary r) ∧ fetch (atBoundary r) = .ok (i, atBoundary r)

/-- The cold reset (70_reset_and_hazards.md R400, 10_state.md R52, 60_exceptions.md R348). That the host's inputs, the button bytes
and irq_line, are kept is the model's choice (log 5). -/
def Obligations.ColdResetZeroesAndLoadsTheVector : Prop :=
  ∀ s, let r := coldReset s
    (∃ vlo vhi, memRead 0xFFFC r = .ok (vlo, r) ∧ memRead 0xFFFD r = .ok (vhi, r) ∧ r.pc = word vlo vhi) ∧
    r.a = 0 ∧ r.x = 0 ∧ r.y = 0 ∧ r.sp = 0xFD ∧ packed r.p false = 0x24 ∧ r.p.b = false ∧
    r.cyclesRemaining = 0 ∧ r.dmaStall = 0 ∧ r.cyclesTotal = 0 ∧ r.nmiPending = false ∧ r.halted = false ∧ r.fault = none ∧
    (∀ k, r.ram.get k = 0 ∧ r.ppu.vram.get k = 0 ∧ r.ppu.oam.get k = 0 ∧ r.ppu.palette.get k = 0) ∧
    (s.cart.pattern = .ram → ∀ k, r.cart.chr.get k = 0) ∧
    r.ppu = Ppu.reset ∧
    r.pads = { s.pads with strobe := false, shift0 := 0, shift1 := 0 } ∧
    r.cart = { s.cart with chr := r.cart.chr } ∧ (s.cart.pattern ≠ .ram → r.cart = s.cart) ∧
    r.irqLine = s.irqLine

/-- The warm reset (70_reset_and_hazards.md R401, R402). That the host's inputs, the button bytes and irq_line, are kept is the
model's choice (log 5). -/
def Obligations.WarmResetKeepsTheMemories : Prop :=
  ∀ s, let r := warmReset s
    (∃ vlo vhi, memRead 0xFFFC r = .ok (vlo, r) ∧ memRead 0xFFFD r = .ok (vhi, r) ∧ r.pc = word vlo vhi) ∧
    r.a = 0 ∧ r.x = 0 ∧ r.y = 0 ∧ r.sp = 0xFD ∧ packed r.p false = 0x24 ∧ r.p.b = false ∧
    r.cyclesRemaining = 0 ∧ r.dmaStall = 0 ∧ r.cyclesTotal = 0 ∧ r.nmiPending = false ∧ r.halted = false ∧ r.fault = none ∧
    r.ram = s.ram ∧ r.ppu = { Ppu.reset with vram := s.ppu.vram, oam := s.ppu.oam, palette := s.ppu.palette } ∧
    r.pads = { s.pads with strobe := false, shift0 := 0, shift1 := 0 } ∧ r.cart = s.cart ∧ r.irqLine = s.irqLine

/-- The state after reset (10_state.md R52). Its blank cartridge, and with it PC = $0000 and the cartridge part of the invariant, is the
model's choice (log 6), and so are the button bytes of $00 (log 5). -/
def Obligations.ResetStateIsAColdReset : Prop :=
  coldReset State.reset = State.reset ∧ State.reset.sp = 0xFD ∧ packed State.reset.p true = 0x34 ∧
    State.reset.cyclesRemaining = 0 ∧ State.reset.halted = false ∧ State.reset.nmiPending = false ∧ State.reset.Inv

/-- Loading a cartridge image (20_memory.md R79 to R81). That bytes behind the last bank do not stop a load is the model's choice
(log 14). -/
def Obligations.BadImagesAreNotLoaded : Prop :=
  (∀ image c, loadImage image = .ok c →
    image.take 4 = [0x4E, 0x45, 0x53, 0x1A] ∧ imageByte image 6 / 16 = 0 ∧ imageByte image 7 / 16 = 0 ∧
    (c.prgSize = .banks1 ∧ imageByte image 4 = 1 ∨ c.prgSize = .banks2 ∧ imageByte image 4 = 2) ∧
    prgStart image + 16384 * imageByte image 4 + 8192 * imageByte image 5 ≤ image.length ∧
    (∀ k, k < 16384 * imageByte image 4 → c.prg.get k = image.getD (prgStart image + k) 0) ∧
    (∀ k, k < 8192 * imageByte image 5 → c.chr.get k = image.getD (prgStart image + 16384 * imageByte image 4 + k) 0) ∧
    (c.pattern = .ram ↔ imageByte image 5 = 0) ∧ (c.mirroring = .vertical ↔ imageByte image 6 % 2 = 1)) ∧
  (∀ image, image.take 4 = [0x4E, 0x45, 0x53, 0x1A] → imageByte image 6 / 16 = 0 → imageByte image 7 / 16 = 0 →
    imageByte image 4 = 1 ∨ imageByte image 4 = 2 → 16 ≤ image.length →
    prgStart image + 16384 * imageByte image 4 + 8192 * imageByte image 5 ≤ image.length → ∃ c, loadImage image = .ok c)

/-- Decode and encode agree (30_encoding.md R100 to R107). That encode writes BRK's padding byte as $00 is the model's choice (log 10),
and so is that the 105 undefined rows are one constructor (log 15). -/
def Obligations.DecodingAnEncodedInstructionGivesItBack : Prop :=
  ∀ i rest, i.wellFormed = true → decode (encode i ++ rest) = .ok (i, rest)

/-- Every opcode byte is one of the 151 or undefined (30_encoding.md R106, R107). -/
def Obligations.EveryOpcodeByteDecodes : Prop :=
  ∀ (op b1 b2 : Byte) rest, ∃ i more, decode (op :: b1 :: b2 :: rest) = .ok (i, more) ∧ i.wellFormed = true ∧ opcodeOf i = op ∧
    (i = .illegal op ↔ undefinedOpcodes.contains op = true) ∧ (i ≠ .brk → encode i ++ more = op :: b1 :: b2 :: rest) ∧
    (op = 0x00 → i = .brk ∧ more = b2 :: rest)

/-- Instruction words written out from the spec (95_test_vectors.md section 2). That a byte list ending in the opcode of BRK is cut short
is the model's choice (log 10). -/
def Obligations.SampleWordsDecode : Prop :=
  decode [0xA9, 0x01] = .ok (.ldaImm 0x01, []) ∧ decode [0x8D, 0x00, 0x02] = .ok (.staAbs 0x0200, []) ∧
    decode [0xEA] = .ok (.nop, []) ∧ decode [0x6C, 0xFF, 0x02] = .ok (.jmpInd 0x02FF, []) ∧
    decode [0xD0, 0xFA] = .ok (.bne 0xFA, []) ∧ decode [0x96, 0xFF] = .ok (.stxZpy 0xFF, []) ∧
    decode [0xFE, 0xFF, 0x02] = .ok (.incAbx 0x02FF, []) ∧ decode [0x00, 0xEA, 0xA9] = .ok (.brk, [0xA9]) ∧
    decode [0x00, 0x00] = .ok (.brk, []) ∧ decode [0x00] = .error (.truncated 0x00) ∧
    decode [0x02] = .ok (.illegal 0x02, []) ∧ decode [0x6A] = .ok (.rorAcc, []) ∧ decode [0x28] = .ok (.plp, []) ∧
    decode [0xF8] = .ok (.sed, []) ∧ decode [] = .error .noOpcode ∧ decode [0xAD, 0x00] = .error (.truncated 0xAD)

/-- Who writes A, X and Y (10_state.md R31 to R33). -/
def Obligations.AccumulatorIsWrittenOnlyByItsInstructions : Prop :=
  ∀ i s t, exec i s = .next t →
    (i.mnemonic ∉ [.lda, .pla, .txa, .tya, .adc, .sbc, .and, .ora, .eor] → i.mode ≠ .acc → t.a = s.a) ∧
    (i.mnemonic ∉ [.ldx, .tax, .tsx, .inx, .dex] → t.x = s.x) ∧
    (i.mnemonic ∉ [.ldy, .tay, .iny, .dey] → t.y = s.y)

/-- Who writes each flag (10_state.md R37 to R43). -/
def Obligations.FlagsAreWrittenOnlyByTheirInstructions : Prop :=
  ∀ i s t, exec i s = .next t →
    (i.mnemonic ∉ [.adc, .sbc, .cmp, .cpx, .cpy, .asl, .lsr, .rol, .ror, .plp, .rti, .sec, .clc] → t.p.c = s.p.c) ∧
    (i.mnemonic ∉ [.adc, .sbc, .bit, .clv, .plp, .rti] → t.p.v = s.p.v) ∧
    (i.mnemonic ∉ [.sei, .cli, .brk, .plp, .rti] → t.p.i = s.p.i) ∧
    (i.mnemonic ∉ [.sed, .cld, .plp, .rti] → t.p.d = s.p.d) ∧
    (i.mnemonic ∉ [.plp, .rti] → t.p.b = s.p.b) ∧
    (i.mnemonic ∉ [.lda, .ldx, .ldy, .tax, .tay, .txa, .tya, .tsx, .pla, .adc, .sbc, .and, .ora, .eor, .inc, .dec, .inx, .iny, .dex,
      .dey, .asl, .lsr, .rol, .ror, .cmp, .cpx, .cpy, .bit, .plp, .rti] → t.p.z = s.p.z ∧ t.p.n = s.p.n)

/-- How SP moves (10_state.md R45). -/
def Obligations.StackPointerMovesByItsInstructions : Prop :=
  ∀ i s t, exec i s = .next t →
    (i.mnemonic ∈ [.pha, .php] → t.sp = s.sp - 1) ∧ (i.mnemonic = .jsr → t.sp = s.sp - 2) ∧
    (i.mnemonic = .brk → t.sp = s.sp - 3) ∧ (i.mnemonic ∈ [.pla, .plp] → t.sp = s.sp + 1) ∧
    (i.mnemonic = .rts → t.sp = s.sp + 2) ∧ (i.mnemonic = .rti → t.sp = s.sp + 3) ∧ (i.mnemonic = .txs → t.sp = s.x) ∧
    (i.mnemonic ∉ [.pha, .php, .jsr, .brk, .pla, .plp, .rts, .rti, .txs] → t.sp = s.sp)

/-- The memory frame of the instructions that store nothing (40_addressing.md R144). -/
def Obligations.InstructionsThatDoNotStoreKeepMemory : Prop :=
  ∀ i s t, exec i s = .next t → i.mnemonic ∉ storing ∨ i.mode = .acc →
    (∀ a, plainByte t a = plainByte s a) ∧ (∀ a, ppuMemRead a t = ppuMemRead a s) ∧ (∀ k, t.ppu.oam.get k = s.ppu.oam.get k) ∧
    t.dmaStall = s.dmaStall

/-- The memory frame of the stores and of read-modify-write (40_addressing.md R144). -/
def Obligations.StoresChangeOnlyTheirByte : Prop :=
  ∀ i m s t, storeForm i = some m → s.memoriesOk → exec i s = .next t →
    let ea := (effectiveAddress m s).toNat
    (∀ a, ¬(ea < 0x2000 ∧ a.toNat < 0x2000 ∧ a.toNat % 2048 = ea % 2048) → plainByte t a = plainByte s a) ∧
    (¬(0x2000 ≤ ea ∧ ea < 0x4000 ∧ ea % 8 = 7) → ∀ a, ppuMemRead a t = ppuMemRead a s) ∧
    (¬(0x2000 ≤ ea ∧ ea < 0x4000 ∧ ea % 8 = 4) → ea ≠ 0x4014 → ∀ k, t.ppu.oam.get k = s.ppu.oam.get k)

/-- The memory frame of PHA, PHP, JSR and BRK (00_scope.md R9). The count openDraws is the model's own (log 2). -/
def Obligations.PushesChangeOnlyTheirSlots : Prop :=
  ∀ i n s t, (i.mnemonic ∈ [.pha, .php] ∧ n = 1) ∨ (i.mnemonic = .jsr ∧ n = 2) ∨ (i.mnemonic = .brk ∧ n = 3) →
    s.memoriesOk → exec i s = .next t →
    (∀ a, (∀ k, k < n → ¬(a.toNat < 0x2000 ∧ a.toNat % 2048 = (stackAddr (s.sp - BitVec.ofNat 8 k)).toNat)) →
      plainByte t a = plainByte s a) ∧
    t.ppu = s.ppu ∧ t.pads = s.pads ∧ t.cart = s.cart ∧ t.openDraws = s.openDraws ∧ t.dmaStall = s.dmaStall

/-- What no instruction changes (70_reset_and_hazards.md R410, R420, 60_exceptions.md R300). The count dotDraws is the model's own
(log 3), and the field warmupCycles and the host's inputs are in State by its choice (log 4, log 5). That an undefined
opcode gives a halted next state is its reading (log 8). -/
def Obligations.InstructionsKeepTimingAndInputs : Prop :=
  ∀ i s t, exec i s = .next t →
    t.irqLine = s.irqLine ∧ t.cyclesTotal = s.cyclesTotal ∧ t.warmupCycles = s.warmupCycles ∧ t.dotDraws = s.dotDraws ∧
    t.pads.pad0 = s.pads.pad0 ∧ t.pads.pad1 = s.pads.pad1 ∧ t.cart = { s.cart with chr := t.cart.chr } ∧
    t.ppu.scanline = s.ppu.scanline ∧ t.ppu.dot = s.ppu.dot ∧ t.ppu.frame = s.ppu.frame ∧
    t.ppu.frameComplete = s.ppu.frameComplete ∧ t.ppu.sprite0Hit = s.ppu.sprite0Hit ∧
    t.ppu.spriteOverflow = s.ppu.spriteOverflow ∧ (t.ppu.vblank = true → s.ppu.vblank = true) ∧
    (i.mnemonic ≠ .illegal → t.halted = s.halted ∧ t.fault = s.fault)

/-- When exec and the fetch stop (60_exceptions.md R301, R335, R338, 93_implementation_defined.md U4). That the refusal covers
fetches, pointers and DMA reads is the model's reading of U4 (log 9), that the fatal decode error is a next state of exec is its
reading of R300 (log 8), and the form of the draw that an INC or shift of $4014 reads is its choice (log 2). -/
def Obligations.InstructionsAreRefusedOnlyWhileRendering : Prop :=
  (∀ i s r, exec i s ≠ .fault r) ∧
  (∀ i s, (∃ r, exec i s = .refused r) ↔ renders s ∧ ∃ k a, dataPort k a ∧ Reaches i s a) ∧
  (∀ i s r, exec i s = .refused r → ∃ k a, dataPort k a ∧ Reaches i s a ∧ r = .portWhileRendering k) ∧
  (∀ s r, fetch s = .error r → renders s ∧ ∃ k j, j < 3 ∧ dataPort k (s.pc + BitVec.ofNat 16 j) ∧ r = .portWhileRendering k) ∧
  (∀ s k, renders s → dataPort k s.pc → fetch s = .error (.portWhileRendering k)) ∧
  (∀ s r, s.halted = false → s.cyclesRemaining = 0 → noInterrupt (atBoundary s) → fetch (atBoundary s) = .error r →
    step s = .refused r)

/-- The cost table (70_reset_and_hazards.md R412, R413). -/
def Obligations.CostsAreTheTablesBaseCosts : Prop :=
  ∀ i s t, exec i s = .next t → i.mnemonic ≠ .illegal →
    (i.mode ∉ [.abx, .aby, .izy, .rel] → t.cyclesRemaining = tableCost (opcodeOf i)) ∧
    (storeForm i ≠ none → t.cyclesRemaining = tableCost (opcodeOf i)) ∧
    (i.mode ∈ [.abx, .aby, .izy] → t.cyclesRemaining = tableCost (opcodeOf i) ∨
      t.cyclesRemaining = tableCost (opcodeOf i) + 1) ∧
    (i.mode = .rel → t.cyclesRemaining = tableCost (opcodeOf i) ∨ t.cyclesRemaining = tableCost (opcodeOf i) + 1 ∨
      t.cyclesRemaining = tableCost (opcodeOf i) + 2)

/-- The invariant of the machine (20_memory.md R65, 60_exceptions.md R300, R341 to R346). The canonical form of a memory is the model's
own, on its reading of an unlisted byte as $00 (log 6), and a halted session is a state by its reading (log 8). -/
def Obligations.EveryStepKeepsTheInvariant : Prop :=
  ∀ s t, s.Inv → step s = .next t → t.Inv

/-- The machine never stops by itself but by the fatal decode error (70_reset_and_hazards.md R421, 60_exceptions.md R300, R301). That the
step which meets an undefined opcode byte has a next state, and the fault comes with the step after it, is the model's reading (log 8). -/
def Obligations.RunningMachineAlwaysHasANextStep : Prop :=
  ∀ s, s.Running → ∃ t, step s = .next t
end

