-- ==== Sys2Proof/Laws/Memory.lean ====
section
/-! SUPPORT. The laws of a memory: a read after a write, and every operation keeps the canonical form and the size. -/

namespace Sys2Proof.Machine

theorem Memory.get_cons (a : Nat) (v : Byte) (m : Memory) (b : Nat) (h : v = 0 → Memory.get m a = 0) :
    Memory.get (Memory.cons a v m) b = if b = a then v else Memory.get m b := by
  unfold Memory.cons
  by_cases hv : v = 0
  · rw [if_pos hv]
    by_cases hb : b = a
    · rw [if_pos hb, hb, h hv, hv]
    · rw [if_neg hb]
  · rw [if_neg hv, Memory.get]

/-- An address below every listed one reads as 0. -/
theorem Memory.get_below (m : Memory) (a : Nat) (h : ∀ c ∈ m, a < c.1) : Memory.get m a = 0 := by
  induction m with
  | nil => rfl
  | cons c rest ih =>
    have hc := h c (by simp)
    simp only [Memory.get]
    rw [if_neg (by omega)]
    exact ih fun d hd => h d (by simp [hd])

/-- A read after a write: the byte written there, the old byte elsewhere. -/
theorem Memory.get_set (m : Memory) (hm : Memory.wf m) (a : Nat) (v : Byte) (b : Nat) :
    Memory.get (Memory.set m a v) b = if b = a then v else Memory.get m b := by
  induction m with
  | nil => rw [Memory.set, Memory.get_cons _ _ _ _ fun _ => rfl]
  | cons c rest ih =>
    obtain ⟨k, w⟩ := c
    obtain ⟨hs, hz⟩ := hm
    rw [List.pairwise_cons] at hs
    have hrest : Memory.wf rest := ⟨hs.2, fun d hd => hz d (by simp [hd])⟩
    simp only [Memory.set]
    split
    · next hlt =>
      rw [Memory.get_cons]
      intro _
      refine Memory.get_below _ _ fun d hd => ?_
      rcases List.mem_cons.1 hd with rfl | hd
      · exact hlt
      · exact hlt.trans (hs.1 d hd)
    · split
      · next _ heq =>
        subst heq
        rw [Memory.get_cons]
        · simp only [Memory.get]; split <;> simp_all
        · exact fun _ => Memory.get_below _ _ hs.1
      · next h1 h2 =>
        simp only [Memory.get, ih hrest]
        split <;> split <;> simp_all

theorem Memory.cons_wf (a : Nat) (v : Byte) (m : Memory) (hm : Memory.wf m) (h : ∀ c ∈ m, a < c.1) :
    Memory.wf (Memory.cons a v m) := by
  unfold Memory.cons
  split
  · exact hm
  · next hv =>
    exact ⟨List.pairwise_cons.2 ⟨h, hm.1⟩, List.forall_mem_cons.2 ⟨hv, hm.2⟩⟩

theorem Memory.mem_cons' {c : Host.Cell} {a : Nat} {v : Byte} {m : Memory} (h : c ∈ Memory.cons a v m) :
    c.1 = a ∨ c ∈ m := by
  unfold Memory.cons at h
  split at h
  · exact .inr h
  · rcases List.mem_cons.1 h with rfl | h
    · exact .inl rfl
    · exact .inr h

/-- A pair listed after a write is the written address or was listed before. -/
theorem Memory.mem_set {c : Host.Cell} {m : Memory} {a : Nat} {v : Byte} (h : c ∈ Memory.set m a v) : c.1 = a ∨ c ∈ m := by
  induction m with
  | nil => exact Memory.mem_cons' h
  | cons d rest ih =>
    obtain ⟨k, w⟩ := d
    simp only [Memory.set] at h
    split at h
    · exact Memory.mem_cons' h
    · split at h
      · exact (Memory.mem_cons' h).imp_right fun h => by simp [h]
      · rcases List.mem_cons.1 h with rfl | h
        · simp
        · exact (ih h).imp_right fun h => by simp [h]

/-- A write keeps the canonical form. -/
theorem Memory.set_wf (m : Memory) (a : Nat) (v : Byte) (hm : Memory.wf m) : Memory.wf (Memory.set m a v) := by
  induction m with
  | nil => exact Memory.cons_wf _ _ _ hm (by simp)
  | cons c rest ih =>
    obtain ⟨k, w⟩ := c
    have hs := List.pairwise_cons.1 hm.1
    have hrest : Memory.wf rest := ⟨hs.2, fun d hd => hm.2 d (by simp [hd])⟩
    simp only [Memory.set]
    split
    · next hlt =>
      refine Memory.cons_wf _ _ _ hm fun d hd => ?_
      rcases List.mem_cons.1 hd with rfl | hd
      · exact hlt
      · exact hlt.trans (hs.1 d hd)
    · split
      · next _ heq => subst heq; exact Memory.cons_wf _ _ _ hrest hs.1
      · next h1 h2 =>
        refine ⟨List.pairwise_cons.2 ⟨fun d hd => ?_, (ih hrest).1⟩, fun d hd => ?_⟩
        · rcases Memory.mem_set hd with he | hd
          · simp only [he]; omega
          · exact hs.1 d hd
        · rcases List.mem_cons.1 hd with rfl | hd
          · exact hm.2 (k, w) (by simp)
          · exact (ih hrest).2 d hd

/-- A write inside the size keeps the size. -/
theorem Memory.set_within (n : Nat) (m : Memory) (a : Nat) (v : Byte) (hm : Memory.within n m) (h : a < n) :
    Memory.within n (Memory.set m a v) := by
  intro c hc
  rcases Memory.mem_set hc with he | hc
  · omega
  · exact hm c hc

theorem Memory.ofBytes_above (l : List Byte) (a : Nat) : ∀ c ∈ Memory.ofBytes l a, a ≤ c.1 ∧ c.1 < a + l.length := by
  induction l generalizing a with
  | nil => simp [Memory.ofBytes]
  | cons v rest ih =>
    intro c hc
    rw [List.length_cons]
    rcases Memory.mem_cons' hc with he | hc
    · omega
    · have := ih (a + 1) c hc; omega

/-- A list of bytes makes a memory in canonical form. -/
theorem Memory.ofBytes_wf (l : List Byte) (a : Nat) : Memory.wf (Memory.ofBytes l a) := by
  induction l generalizing a with
  | nil => exact ⟨List.Pairwise.nil, by simp [Memory.ofBytes]⟩
  | cons v rest ih =>
    refine Memory.cons_wf _ _ _ (ih (a + 1)) fun c hc => ?_
    have := Memory.ofBytes_above rest (a + 1) c hc
    omega

/-- The memory of a list of bytes reads as the list. -/
theorem Memory.get_ofBytes (l : List Byte) (a k : Nat) : Memory.get (Memory.ofBytes l a) (a + k) = l.getD k 0 := by
  induction l generalizing a k with
  | nil => simp [Memory.ofBytes, Memory.get]
  | cons v rest ih =>
    rw [Memory.ofBytes, Memory.get_cons]
    · cases k with
      | zero => simp
      | succ k => rw [if_neg (by omega), show a + (k + 1) = a + 1 + k by omega, ih]; simp
    · intro _
      refine Memory.get_below _ _ fun c hc => ?_
      have := Memory.ofBytes_above rest (a + 1) c hc
      omega

end Sys2Proof.Machine
end

