-- ==== Sys2Proof/Laws/State.lean ====
section
/-! SUPPORT. What each named update of the state does to each field. -/

namespace Sys2Proof.Machine

@[simp] theorem State.withPpu_a (s : State) (q : Ppu) : (s.withPpu q).a = s.a := rfl
@[simp] theorem State.withPpu_x (s : State) (q : Ppu) : (s.withPpu q).x = s.x := rfl
@[simp] theorem State.withPpu_y (s : State) (q : Ppu) : (s.withPpu q).y = s.y := rfl
@[simp] theorem State.withPpu_sp (s : State) (q : Ppu) : (s.withPpu q).sp = s.sp := rfl
@[simp] theorem State.withPpu_pc (s : State) (q : Ppu) : (s.withPpu q).pc = s.pc := rfl
@[simp] theorem State.withPpu_p (s : State) (q : Ppu) : (s.withPpu q).p = s.p := rfl
@[simp] theorem State.withPpu_cyclesRemaining (s : State) (q : Ppu) : (s.withPpu q).cyclesRemaining = s.cyclesRemaining := rfl
@[simp] theorem State.withPpu_nmiPending (s : State) (q : Ppu) : (s.withPpu q).nmiPending = s.nmiPending := rfl
@[simp] theorem State.withPpu_irqLine (s : State) (q : Ppu) : (s.withPpu q).irqLine = s.irqLine := rfl
@[simp] theorem State.withPpu_halted (s : State) (q : Ppu) : (s.withPpu q).halted = s.halted := rfl
@[simp] theorem State.withPpu_fault (s : State) (q : Ppu) : (s.withPpu q).fault = s.fault := rfl
@[simp] theorem State.withPpu_cyclesTotal (s : State) (q : Ppu) : (s.withPpu q).cyclesTotal = s.cyclesTotal := rfl
@[simp] theorem State.withPpu_dmaStall (s : State) (q : Ppu) : (s.withPpu q).dmaStall = s.dmaStall := rfl
@[simp] theorem State.withPpu_ram (s : State) (q : Ppu) : (s.withPpu q).ram = s.ram := rfl
@[simp] theorem State.withPpu_ppu (s : State) (q : Ppu) : (s.withPpu q).ppu = q := rfl
@[simp] theorem State.withPpu_pads (s : State) (q : Ppu) : (s.withPpu q).pads = s.pads := rfl
@[simp] theorem State.withPpu_cart (s : State) (q : Ppu) : (s.withPpu q).cart = s.cart := rfl
@[simp] theorem State.withPpu_warmupCycles (s : State) (q : Ppu) : (s.withPpu q).warmupCycles = s.warmupCycles := rfl
@[simp] theorem State.withPpu_openDraws (s : State) (q : Ppu) : (s.withPpu q).openDraws = s.openDraws := rfl
@[simp] theorem State.withPpu_dotDraws (s : State) (q : Ppu) : (s.withPpu q).dotDraws = s.dotDraws := rfl

@[simp] theorem State.writeA_a (v : Byte) (s : State) : (s.writeA v).a = v := rfl
@[simp] theorem State.writeA_x (v : Byte) (s : State) : (s.writeA v).x = s.x := rfl
@[simp] theorem State.writeA_y (v : Byte) (s : State) : (s.writeA v).y = s.y := rfl
@[simp] theorem State.writeA_sp (v : Byte) (s : State) : (s.writeA v).sp = s.sp := rfl
@[simp] theorem State.writeA_pc (v : Byte) (s : State) : (s.writeA v).pc = s.pc := rfl
@[simp] theorem State.writeA_p (v : Byte) (s : State) : (s.writeA v).p = setNZ s.p v := rfl
@[simp] theorem State.writeA_cyclesRemaining (v : Byte) (s : State) : (s.writeA v).cyclesRemaining = s.cyclesRemaining := rfl
@[simp] theorem State.writeA_nmiPending (v : Byte) (s : State) : (s.writeA v).nmiPending = s.nmiPending := rfl
@[simp] theorem State.writeA_irqLine (v : Byte) (s : State) : (s.writeA v).irqLine = s.irqLine := rfl
@[simp] theorem State.writeA_halted (v : Byte) (s : State) : (s.writeA v).halted = s.halted := rfl
@[simp] theorem State.writeA_fault (v : Byte) (s : State) : (s.writeA v).fault = s.fault := rfl
@[simp] theorem State.writeA_cyclesTotal (v : Byte) (s : State) : (s.writeA v).cyclesTotal = s.cyclesTotal := rfl
@[simp] theorem State.writeA_dmaStall (v : Byte) (s : State) : (s.writeA v).dmaStall = s.dmaStall := rfl
@[simp] theorem State.writeA_ram (v : Byte) (s : State) : (s.writeA v).ram = s.ram := rfl
@[simp] theorem State.writeA_ppu (v : Byte) (s : State) : (s.writeA v).ppu = s.ppu := rfl
@[simp] theorem State.writeA_pads (v : Byte) (s : State) : (s.writeA v).pads = s.pads := rfl
@[simp] theorem State.writeA_cart (v : Byte) (s : State) : (s.writeA v).cart = s.cart := rfl
@[simp] theorem State.writeA_warmupCycles (v : Byte) (s : State) : (s.writeA v).warmupCycles = s.warmupCycles := rfl
@[simp] theorem State.writeA_openDraws (v : Byte) (s : State) : (s.writeA v).openDraws = s.openDraws := rfl
@[simp] theorem State.writeA_dotDraws (v : Byte) (s : State) : (s.writeA v).dotDraws = s.dotDraws := rfl

@[simp] theorem State.writeX_a (v : Byte) (s : State) : (s.writeX v).a = s.a := rfl
@[simp] theorem State.writeX_x (v : Byte) (s : State) : (s.writeX v).x = v := rfl
@[simp] theorem State.writeX_y (v : Byte) (s : State) : (s.writeX v).y = s.y := rfl
@[simp] theorem State.writeX_sp (v : Byte) (s : State) : (s.writeX v).sp = s.sp := rfl
@[simp] theorem State.writeX_pc (v : Byte) (s : State) : (s.writeX v).pc = s.pc := rfl
@[simp] theorem State.writeX_p (v : Byte) (s : State) : (s.writeX v).p = setNZ s.p v := rfl
@[simp] theorem State.writeX_cyclesRemaining (v : Byte) (s : State) : (s.writeX v).cyclesRemaining = s.cyclesRemaining := rfl
@[simp] theorem State.writeX_nmiPending (v : Byte) (s : State) : (s.writeX v).nmiPending = s.nmiPending := rfl
@[simp] theorem State.writeX_irqLine (v : Byte) (s : State) : (s.writeX v).irqLine = s.irqLine := rfl
@[simp] theorem State.writeX_halted (v : Byte) (s : State) : (s.writeX v).halted = s.halted := rfl
@[simp] theorem State.writeX_fault (v : Byte) (s : State) : (s.writeX v).fault = s.fault := rfl
@[simp] theorem State.writeX_cyclesTotal (v : Byte) (s : State) : (s.writeX v).cyclesTotal = s.cyclesTotal := rfl
@[simp] theorem State.writeX_dmaStall (v : Byte) (s : State) : (s.writeX v).dmaStall = s.dmaStall := rfl
@[simp] theorem State.writeX_ram (v : Byte) (s : State) : (s.writeX v).ram = s.ram := rfl
@[simp] theorem State.writeX_ppu (v : Byte) (s : State) : (s.writeX v).ppu = s.ppu := rfl
@[simp] theorem State.writeX_pads (v : Byte) (s : State) : (s.writeX v).pads = s.pads := rfl
@[simp] theorem State.writeX_cart (v : Byte) (s : State) : (s.writeX v).cart = s.cart := rfl
@[simp] theorem State.writeX_warmupCycles (v : Byte) (s : State) : (s.writeX v).warmupCycles = s.warmupCycles := rfl
@[simp] theorem State.writeX_openDraws (v : Byte) (s : State) : (s.writeX v).openDraws = s.openDraws := rfl
@[simp] theorem State.writeX_dotDraws (v : Byte) (s : State) : (s.writeX v).dotDraws = s.dotDraws := rfl

@[simp] theorem State.writeY_a (v : Byte) (s : State) : (s.writeY v).a = s.a := rfl
@[simp] theorem State.writeY_x (v : Byte) (s : State) : (s.writeY v).x = s.x := rfl
@[simp] theorem State.writeY_y (v : Byte) (s : State) : (s.writeY v).y = v := rfl
@[simp] theorem State.writeY_sp (v : Byte) (s : State) : (s.writeY v).sp = s.sp := rfl
@[simp] theorem State.writeY_pc (v : Byte) (s : State) : (s.writeY v).pc = s.pc := rfl
@[simp] theorem State.writeY_p (v : Byte) (s : State) : (s.writeY v).p = setNZ s.p v := rfl
@[simp] theorem State.writeY_cyclesRemaining (v : Byte) (s : State) : (s.writeY v).cyclesRemaining = s.cyclesRemaining := rfl
@[simp] theorem State.writeY_nmiPending (v : Byte) (s : State) : (s.writeY v).nmiPending = s.nmiPending := rfl
@[simp] theorem State.writeY_irqLine (v : Byte) (s : State) : (s.writeY v).irqLine = s.irqLine := rfl
@[simp] theorem State.writeY_halted (v : Byte) (s : State) : (s.writeY v).halted = s.halted := rfl
@[simp] theorem State.writeY_fault (v : Byte) (s : State) : (s.writeY v).fault = s.fault := rfl
@[simp] theorem State.writeY_cyclesTotal (v : Byte) (s : State) : (s.writeY v).cyclesTotal = s.cyclesTotal := rfl
@[simp] theorem State.writeY_dmaStall (v : Byte) (s : State) : (s.writeY v).dmaStall = s.dmaStall := rfl
@[simp] theorem State.writeY_ram (v : Byte) (s : State) : (s.writeY v).ram = s.ram := rfl
@[simp] theorem State.writeY_ppu (v : Byte) (s : State) : (s.writeY v).ppu = s.ppu := rfl
@[simp] theorem State.writeY_pads (v : Byte) (s : State) : (s.writeY v).pads = s.pads := rfl
@[simp] theorem State.writeY_cart (v : Byte) (s : State) : (s.writeY v).cart = s.cart := rfl
@[simp] theorem State.writeY_warmupCycles (v : Byte) (s : State) : (s.writeY v).warmupCycles = s.warmupCycles := rfl
@[simp] theorem State.writeY_openDraws (v : Byte) (s : State) : (s.writeY v).openDraws = s.openDraws := rfl
@[simp] theorem State.writeY_dotDraws (v : Byte) (s : State) : (s.writeY v).dotDraws = s.dotDraws := rfl

@[simp] theorem State.withP_a (q : Status) (s : State) : (s.withP q).a = s.a := rfl
@[simp] theorem State.withP_x (q : Status) (s : State) : (s.withP q).x = s.x := rfl
@[simp] theorem State.withP_y (q : Status) (s : State) : (s.withP q).y = s.y := rfl
@[simp] theorem State.withP_sp (q : Status) (s : State) : (s.withP q).sp = s.sp := rfl
@[simp] theorem State.withP_pc (q : Status) (s : State) : (s.withP q).pc = s.pc := rfl
@[simp] theorem State.withP_p (q : Status) (s : State) : (s.withP q).p = q := rfl
@[simp] theorem State.withP_cyclesRemaining (q : Status) (s : State) : (s.withP q).cyclesRemaining = s.cyclesRemaining := rfl
@[simp] theorem State.withP_nmiPending (q : Status) (s : State) : (s.withP q).nmiPending = s.nmiPending := rfl
@[simp] theorem State.withP_irqLine (q : Status) (s : State) : (s.withP q).irqLine = s.irqLine := rfl
@[simp] theorem State.withP_halted (q : Status) (s : State) : (s.withP q).halted = s.halted := rfl
@[simp] theorem State.withP_fault (q : Status) (s : State) : (s.withP q).fault = s.fault := rfl
@[simp] theorem State.withP_cyclesTotal (q : Status) (s : State) : (s.withP q).cyclesTotal = s.cyclesTotal := rfl
@[simp] theorem State.withP_dmaStall (q : Status) (s : State) : (s.withP q).dmaStall = s.dmaStall := rfl
@[simp] theorem State.withP_ram (q : Status) (s : State) : (s.withP q).ram = s.ram := rfl
@[simp] theorem State.withP_ppu (q : Status) (s : State) : (s.withP q).ppu = s.ppu := rfl
@[simp] theorem State.withP_pads (q : Status) (s : State) : (s.withP q).pads = s.pads := rfl
@[simp] theorem State.withP_cart (q : Status) (s : State) : (s.withP q).cart = s.cart := rfl
@[simp] theorem State.withP_warmupCycles (q : Status) (s : State) : (s.withP q).warmupCycles = s.warmupCycles := rfl
@[simp] theorem State.withP_openDraws (q : Status) (s : State) : (s.withP q).openDraws = s.openDraws := rfl
@[simp] theorem State.withP_dotDraws (q : Status) (s : State) : (s.withP q).dotDraws = s.dotDraws := rfl

@[simp] theorem State.retire_a (w : Word) (n : Nat) (s : State) : (s.retire w n).a = s.a := rfl
@[simp] theorem State.retire_x (w : Word) (n : Nat) (s : State) : (s.retire w n).x = s.x := rfl
@[simp] theorem State.retire_y (w : Word) (n : Nat) (s : State) : (s.retire w n).y = s.y := rfl
@[simp] theorem State.retire_sp (w : Word) (n : Nat) (s : State) : (s.retire w n).sp = s.sp := rfl
@[simp] theorem State.retire_pc (w : Word) (n : Nat) (s : State) : (s.retire w n).pc = w := rfl
@[simp] theorem State.retire_p (w : Word) (n : Nat) (s : State) : (s.retire w n).p = s.p := rfl
@[simp] theorem State.retire_cyclesRemaining (w : Word) (n : Nat) (s : State) : (s.retire w n).cyclesRemaining = n := rfl
@[simp] theorem State.retire_nmiPending (w : Word) (n : Nat) (s : State) : (s.retire w n).nmiPending = s.nmiPending := rfl
@[simp] theorem State.retire_irqLine (w : Word) (n : Nat) (s : State) : (s.retire w n).irqLine = s.irqLine := rfl
@[simp] theorem State.retire_halted (w : Word) (n : Nat) (s : State) : (s.retire w n).halted = s.halted := rfl
@[simp] theorem State.retire_fault (w : Word) (n : Nat) (s : State) : (s.retire w n).fault = s.fault := rfl
@[simp] theorem State.retire_cyclesTotal (w : Word) (n : Nat) (s : State) : (s.retire w n).cyclesTotal = s.cyclesTotal := rfl
@[simp] theorem State.retire_dmaStall (w : Word) (n : Nat) (s : State) : (s.retire w n).dmaStall = s.dmaStall := rfl
@[simp] theorem State.retire_ram (w : Word) (n : Nat) (s : State) : (s.retire w n).ram = s.ram := rfl
@[simp] theorem State.retire_ppu (w : Word) (n : Nat) (s : State) : (s.retire w n).ppu = s.ppu := rfl
@[simp] theorem State.retire_pads (w : Word) (n : Nat) (s : State) : (s.retire w n).pads = s.pads := rfl
@[simp] theorem State.retire_cart (w : Word) (n : Nat) (s : State) : (s.retire w n).cart = s.cart := rfl
@[simp] theorem State.retire_warmupCycles (w : Word) (n : Nat) (s : State) : (s.retire w n).warmupCycles = s.warmupCycles := rfl
@[simp] theorem State.retire_openDraws (w : Word) (n : Nat) (s : State) : (s.retire w n).openDraws = s.openDraws := rfl
@[simp] theorem State.retire_dotDraws (w : Word) (n : Nat) (s : State) : (s.retire w n).dotDraws = s.dotDraws := rfl

@[simp] theorem State.push_a (v : Byte) (s : State) : (s.push v).a = s.a := rfl
@[simp] theorem State.push_x (v : Byte) (s : State) : (s.push v).x = s.x := rfl
@[simp] theorem State.push_y (v : Byte) (s : State) : (s.push v).y = s.y := rfl
@[simp] theorem State.push_sp (v : Byte) (s : State) : (s.push v).sp = s.sp - 1 := rfl
@[simp] theorem State.push_pc (v : Byte) (s : State) : (s.push v).pc = s.pc := rfl
@[simp] theorem State.push_p (v : Byte) (s : State) : (s.push v).p = s.p := rfl
@[simp] theorem State.push_cyclesRemaining (v : Byte) (s : State) : (s.push v).cyclesRemaining = s.cyclesRemaining := rfl
@[simp] theorem State.push_nmiPending (v : Byte) (s : State) : (s.push v).nmiPending = s.nmiPending := rfl
@[simp] theorem State.push_irqLine (v : Byte) (s : State) : (s.push v).irqLine = s.irqLine := rfl
@[simp] theorem State.push_halted (v : Byte) (s : State) : (s.push v).halted = s.halted := rfl
@[simp] theorem State.push_fault (v : Byte) (s : State) : (s.push v).fault = s.fault := rfl
@[simp] theorem State.push_cyclesTotal (v : Byte) (s : State) : (s.push v).cyclesTotal = s.cyclesTotal := rfl
@[simp] theorem State.push_dmaStall (v : Byte) (s : State) : (s.push v).dmaStall = s.dmaStall := rfl
@[simp] theorem State.push_ram (v : Byte) (s : State) : (s.push v).ram = s.ram.set (stackIndex s.sp) v := rfl
@[simp] theorem State.push_ppu (v : Byte) (s : State) : (s.push v).ppu = s.ppu := rfl
@[simp] theorem State.push_pads (v : Byte) (s : State) : (s.push v).pads = s.pads := rfl
@[simp] theorem State.push_cart (v : Byte) (s : State) : (s.push v).cart = s.cart := rfl
@[simp] theorem State.push_warmupCycles (v : Byte) (s : State) : (s.push v).warmupCycles = s.warmupCycles := rfl
@[simp] theorem State.push_openDraws (v : Byte) (s : State) : (s.push v).openDraws = s.openDraws := rfl
@[simp] theorem State.push_dotDraws (v : Byte) (s : State) : (s.push v).dotDraws = s.dotDraws := rfl

@[simp] theorem State.popped_a (s : State) : s.popped.a = s.a := rfl
@[simp] theorem State.popped_x (s : State) : s.popped.x = s.x := rfl
@[simp] theorem State.popped_y (s : State) : s.popped.y = s.y := rfl
@[simp] theorem State.popped_sp (s : State) : s.popped.sp = s.sp + 1 := rfl
@[simp] theorem State.popped_pc (s : State) : s.popped.pc = s.pc := rfl
@[simp] theorem State.popped_p (s : State) : s.popped.p = s.p := rfl
@[simp] theorem State.popped_cyclesRemaining (s : State) : s.popped.cyclesRemaining = s.cyclesRemaining := rfl
@[simp] theorem State.popped_nmiPending (s : State) : s.popped.nmiPending = s.nmiPending := rfl
@[simp] theorem State.popped_irqLine (s : State) : s.popped.irqLine = s.irqLine := rfl
@[simp] theorem State.popped_halted (s : State) : s.popped.halted = s.halted := rfl
@[simp] theorem State.popped_fault (s : State) : s.popped.fault = s.fault := rfl
@[simp] theorem State.popped_cyclesTotal (s : State) : s.popped.cyclesTotal = s.cyclesTotal := rfl
@[simp] theorem State.popped_dmaStall (s : State) : s.popped.dmaStall = s.dmaStall := rfl
@[simp] theorem State.popped_ram (s : State) : s.popped.ram = s.ram := rfl
@[simp] theorem State.popped_ppu (s : State) : s.popped.ppu = s.ppu := rfl
@[simp] theorem State.popped_pads (s : State) : s.popped.pads = s.pads := rfl
@[simp] theorem State.popped_cart (s : State) : s.popped.cart = s.cart := rfl
@[simp] theorem State.popped_warmupCycles (s : State) : s.popped.warmupCycles = s.warmupCycles := rfl
@[simp] theorem State.popped_openDraws (s : State) : s.popped.openDraws = s.openDraws := rfl
@[simp] theorem State.popped_dotDraws (s : State) : s.popped.dotDraws = s.dotDraws := rfl

@[simp] theorem chargeStall_a (s : State) : (chargeStall s).a = s.a := rfl
@[simp] theorem chargeStall_x (s : State) : (chargeStall s).x = s.x := rfl
@[simp] theorem chargeStall_y (s : State) : (chargeStall s).y = s.y := rfl
@[simp] theorem chargeStall_sp (s : State) : (chargeStall s).sp = s.sp := rfl
@[simp] theorem chargeStall_pc (s : State) : (chargeStall s).pc = s.pc := rfl
@[simp] theorem chargeStall_p (s : State) : (chargeStall s).p = s.p := rfl
@[simp] theorem chargeStall_cyclesRemaining (s : State) : (chargeStall s).cyclesRemaining = s.cyclesRemaining + s.dmaStall := rfl
@[simp] theorem chargeStall_nmiPending (s : State) : (chargeStall s).nmiPending = s.nmiPending := rfl
@[simp] theorem chargeStall_irqLine (s : State) : (chargeStall s).irqLine = s.irqLine := rfl
@[simp] theorem chargeStall_halted (s : State) : (chargeStall s).halted = s.halted := rfl
@[simp] theorem chargeStall_fault (s : State) : (chargeStall s).fault = s.fault := rfl
@[simp] theorem chargeStall_cyclesTotal (s : State) : (chargeStall s).cyclesTotal = s.cyclesTotal := rfl
@[simp] theorem chargeStall_dmaStall (s : State) : (chargeStall s).dmaStall = 0 := rfl
@[simp] theorem chargeStall_ram (s : State) : (chargeStall s).ram = s.ram := rfl
@[simp] theorem chargeStall_ppu (s : State) : (chargeStall s).ppu = s.ppu := rfl
@[simp] theorem chargeStall_pads (s : State) : (chargeStall s).pads = s.pads := rfl
@[simp] theorem chargeStall_cart (s : State) : (chargeStall s).cart = s.cart := rfl
@[simp] theorem chargeStall_warmupCycles (s : State) : (chargeStall s).warmupCycles = s.warmupCycles := rfl
@[simp] theorem chargeStall_openDraws (s : State) : (chargeStall s).openDraws = s.openDraws := rfl
@[simp] theorem chargeStall_dotDraws (s : State) : (chargeStall s).dotDraws = s.dotDraws := rfl

@[simp] theorem setNZ_v (p : Status) (r : Byte) : (setNZ p r).v = p.v := rfl
@[simp] theorem setNZ_b (p : Status) (r : Byte) : (setNZ p r).b = p.b := rfl
@[simp] theorem setNZ_d (p : Status) (r : Byte) : (setNZ p r).d = p.d := rfl
@[simp] theorem setNZ_i (p : Status) (r : Byte) : (setNZ p r).i = p.i := rfl
@[simp] theorem setNZ_c (p : Status) (r : Byte) : (setNZ p r).c = p.c := rfl
@[simp] theorem setNZ_n (p : Status) (r : Byte) : (setNZ p r).n = r.getLsbD 7 := rfl
@[simp] theorem setNZ_z (p : Status) (r : Byte) : (setNZ p r).z = (r == 0) := rfl

end Sys2Proof.Machine
end

