-- ==== Sys2Proof/Laws/Bus.lean ====
section
/-! SUPPORT. What a bus access can do: one lemma for a read, one for a write, and when each answers. -/

namespace Sys2Proof.Machine

/-- The most a bus read changes: the read side effects of ports 2 and 7, of the controllers, and the count of draws
(20_memory.md R70). -/
def readTouched (s : State) (vb w : Bool) (v : BitVec 15) (rb h0 h1 : Byte) (n : Nat) : State :=
  { s with
    ppu := { s.ppu with vblank := vb, w := w, v := v, readBuffer := rb }
    pads := { s.pads with shift0 := h0, shift1 := h1 }
    openDraws := n }

/-- `t` is `s` after bus reads, which only ever clear VBlank. -/
def ReadFrom (s t : State) : Prop :=
  t = readTouched s t.ppu.vblank t.ppu.w t.ppu.v t.ppu.readBuffer t.pads.shift0 t.pads.shift1 t.openDraws ∧
    (t.ppu.vblank = true → s.ppu.vblank = true)

theorem ReadFrom.touched {s t : State} (h : ReadFrom s t) :
    ∃ vb w v rb h0 h1 n, t = readTouched s vb w v rb h0 h1 n ∧ (vb = true → s.ppu.vblank = true) :=
  ⟨_, _, _, _, _, _, _, h⟩

theorem ReadFrom.refl (s : State) : ReadFrom s s := ⟨rfl, id⟩

theorem ReadFrom.trans {s t u : State} (h : ReadFrom s t) (g : ReadFrom t u) : ReadFrom s u := by
  obtain ⟨vb, w, v, rb, h0, h1, n, rfl, hv⟩ := h.touched
  obtain ⟨vb', w', v', rb', h0', h1', n', rfl, gv⟩ := g.touched
  exact ⟨rfl, fun h => hv (gv h)⟩

theorem ok_snd {x : Byte × State} {v : Byte} {t : State} (h : (.ok x : Except Refusal (Byte × State)) = .ok (v, t)) : x.2 = t := by
  cases h; rfl

theorem drawOpen_readFrom (a : Word) (s : State) : ReadFrom s (drawOpen a s).2 := ⟨rfl, id⟩

theorem dataRead_readFrom (s : State) : ReadFrom s (dataRead s).2 := by
  unfold dataRead
  dsimp only
  split <;> exact ⟨rfl, id⟩

theorem portRead_readFrom {port : Nat} {s t : State} {v : Byte} (h : portRead port s = .ok (v, t)) : ReadFrom s t := by
  unfold portRead at h
  split at h
  · rw [← ok_snd h]; exact ⟨rfl, nofun⟩
  · split at h
    · cases h
    · cases h; exact .refl _
  · split at h
    · cases h
    · rw [← ok_snd h]; exact dataRead_readFrom _
  · rw [← ok_snd h]; exact drawOpen_readFrom _ _

theorem padRead0_readFrom (s : State) : ReadFrom s (padRead0 s).2 := by
  unfold padRead0
  split <;> exact ⟨rfl, id⟩

theorem padRead1_readFrom (s : State) : ReadFrom s (padRead1 s).2 := by
  unfold padRead1
  split <;> exact ⟨rfl, id⟩

theorem ioRead_readFrom (a : Word) (s : State) : ReadFrom s (ioRead a s).2 := by
  unfold ioRead
  split
  · exact (padRead0_readFrom s).trans (drawOpen_readFrom a _)
  · split
    · exact (padRead1_readFrom s).trans (drawOpen_readFrom a _)
    · exact drawOpen_readFrom _ _

theorem cartRead_readFrom (a : Word) (s : State) : ReadFrom s (cartRead a s).2 := by
  unfold cartRead
  split
  · exact .refl _
  · exact drawOpen_readFrom _ _

/-- Everything a bus read can do. -/
theorem memRead_readFrom {a : Word} {s t : State} {v : Byte} (h : memRead a s = .ok (v, t)) : ReadFrom s t := by
  unfold memRead at h
  split at h
  · cases h; exact .refl _
  · split at h
    · exact portRead_readFrom h
    · split at h
      · rw [← ok_snd h]; exact ioRead_readFrom _ _
      · rw [← ok_snd h]; exact cartRead_readFrom _ _

/-- A bus read is refused only at port 4 or 7 while rendering. -/
theorem memRead_error {a : Word} {s : State} {r : Refusal} (h : memRead a s = .error r) : readable a s = false := by
  unfold memRead at h
  split at h
  · cases h
  · split at h
    · next h1 h2 =>
      unfold portRead at h
      split at h
      · cases h
      · next hp =>
        split at h
        · next hr => simp [readable, renderingPort, hr, hp, h2]; omega
        · cases h
      · next hp =>
        split at h
        · next hr => simp [readable, renderingPort, hr, hp, h2]; omega
        · cases h
      · cases h
    · split at h <;> cases h

/-- A readable address answers. -/
theorem memRead_answers {a : Word} {s : State} (h : readable a s = true) : ∃ v t, memRead a s = .ok (v, t) := by
  cases hr : memRead a s with
  | ok p => exact ⟨p.1, p.2, rfl⟩
  | error r => rw [memRead_error hr] at h; cases h

/-- A read of RAM gives the byte stored and changes nothing (20_memory.md R65). -/
theorem memRead_ram {a : Word} (s : State) (h : a.toNat ≤ 0x1FFF) : memRead a s = .ok (s.ram.get (ramIndex a), s) := by
  rw [memRead, if_pos h]

/-- A read of program ROM changes nothing (20_memory.md R66). -/
theorem memRead_rom {a : Word} (s : State) (h : 0x8000 ≤ a.toNat) : memRead a s = .ok (prgByte s a, s) := by
  rw [memRead, if_neg (by omega), if_neg (by omega), if_neg (by omega), cartRead, if_pos h]

/-- A write to RAM (20_memory.md R65). -/
theorem memWrite_ram {a : Word} (v : Byte) (s : State) (h : a.toNat ≤ 0x1FFF) :
    memWrite a v s = .ok { s with ram := s.ram.set (ramIndex a) v } := by
  rw [memWrite, if_pos h]

/-- The zero-page read of `State.zeroPage` is the bus read there (log 13). -/
theorem zeroPage_memRead (s : State) (z : Byte) : memRead (z.setWidth 16) s = .ok (s.zeroPage z, s) := by
  have hz := z.isLt
  have he : (z.setWidth 16).toNat = z.toNat := by simp; omega
  rw [memRead_ram _ (by omega)]
  simp only [State.zeroPage, ramIndex, he]
  rw [Nat.mod_eq_of_lt (by omega)]

theorem stackAddress_toNat (sp : Byte) : (0x0100#16 ||| sp.setWidth 16).toNat = 0x100 + sp.toNat := by
  rw [show (0x0100#16 ||| sp.setWidth 16) = 0x0100#16 + sp.setWidth 16 by
    rw [BitVec.add_eq_or_of_and_eq_zero]
    ext i hi
    simp only [BitVec.getElem_and, BitVec.getElem_setWidth, BitVec.getElem_zero]
    by_cases h8 : i < 8
    · interval_cases i <;> simp
    · simp [BitVec.getLsbD_of_ge sp i (by omega)]]
  have := sp.isLt
  simp; omega

/-- A bus write to the stack page (20_memory.md R69). -/
theorem stack_memWrite (s : State) (sp v : Byte) :
    memWrite (0x0100#16 ||| sp.setWidth 16) v s = .ok { s with ram := s.ram.set (stackIndex sp) v } := by
  have := sp.isLt
  rw [memWrite_ram _ _ (by rw [stackAddress_toNat]; omega)]
  simp only [ramIndex, stackAddress_toNat, stackIndex]
  rw [Nat.mod_eq_of_lt (by omega)]

/-- A bus read of the stack page (20_memory.md R69). -/
theorem stack_memRead (s : State) (sp : Byte) :
    memRead (0x0100#16 ||| sp.setWidth 16) s = .ok (s.ram.get (stackIndex sp), s) := by
  have := sp.isLt
  rw [memRead_ram _ (by rw [stackAddress_toNat]; omega)]
  simp only [ramIndex, stackAddress_toNat, stackIndex]
  rw [Nat.mod_eq_of_lt (by omega)]

/-- `push` is the bus write to the stack page (00_scope.md R9; log 13). -/
theorem push_memWrite (s : State) (v : Byte) :
    memWrite (0x0100#16 ||| s.sp.setWidth 16) v s = .ok { s with ram := (s.push v).ram } :=
  stack_memWrite s s.sp v

/-- `top` is the bus read a pull makes (00_scope.md R9; log 13). -/
theorem top_memRead (s : State) :
    memRead (0x0100#16 ||| (s.sp + 1).setWidth 16) s = .ok (s.top, s) :=
  stack_memRead s (s.sp + 1)

/-- The most a bus write changes: RAM, the PPU's registers and memories but not its timing or its sprite flags, the strobe and shift
registers, pattern RAM, the DMA stall and the count of draws. -/
def writeTouched (s : State) (ram : Memory) (q : Ppu) (k : Controllers) (chr : Memory) (stall n : Nat) : State :=
  { s with
    ram := ram
    ppu := { q with
      sprite0Hit := s.ppu.sprite0Hit, spriteOverflow := s.ppu.spriteOverflow,
      scanline := s.ppu.scanline, dot := s.ppu.dot, frame := s.ppu.frame, frameComplete := s.ppu.frameComplete }
    pads := { k with pad0 := s.pads.pad0, pad1 := s.pads.pad1 }
    cart := { s.cart with chr := chr }
    dmaStall := stall
    openDraws := n }

/-- `t` is `s` after bus writes and reads, which only ever clear VBlank. -/
def WrittenFrom (s t : State) : Prop :=
  t = writeTouched s t.ram t.ppu t.pads t.cart.chr t.dmaStall t.openDraws ∧ (t.ppu.vblank = true → s.ppu.vblank = true)

theorem WrittenFrom.touched {s t : State} (h : WrittenFrom s t) :
    ∃ ram q k chr stall n, t = writeTouched s ram q k chr stall n ∧ (q.vblank = true → s.ppu.vblank = true) :=
  ⟨_, _, _, _, _, _, h⟩

theorem WrittenFrom.refl (s : State) : WrittenFrom s s := ⟨rfl, id⟩

theorem ReadFrom.written {s t : State} (h : ReadFrom s t) : WrittenFrom s t := by
  obtain ⟨vb, w, v, rb, h0, h1, n, rfl, hv⟩ := h.touched
  exact ⟨rfl, hv⟩

theorem WrittenFrom.trans {s t u : State} (h : WrittenFrom s t) (g : WrittenFrom t u) : WrittenFrom s u := by
  obtain ⟨ram, q, k, chr, stall, n, rfl, hv⟩ := h.touched
  obtain ⟨ram', q', k', chr', stall', n', rfl, gv⟩ := g.touched
  exact ⟨rfl, fun h => hv (gv h)⟩

theorem ppuMemWrite_written (a : Nat) (d : Byte) (s : State) : WrittenFrom s (ppuMemWrite a d s) := by
  unfold ppuMemWrite
  split
  · split
    · exact .refl _
    · exact ⟨rfl, id⟩
  · split <;> exact ⟨rfl, id⟩

theorem dataWrite_written (d : Byte) (s : State) : WrittenFrom s (dataWrite d s) :=
  (ppuMemWrite_written _ d s).trans ⟨rfl, id⟩

theorem scrollWrite_written (d : Byte) (s : State) : WrittenFrom s (s.withPpu (s.ppu.scrollWrite d)) := by
  unfold Ppu.scrollWrite; split <;> exact ⟨rfl, id⟩

theorem addrWrite_written (d : Byte) (s : State) : WrittenFrom s (s.withPpu (s.ppu.addrWrite d)) := by
  unfold Ppu.addrWrite; split <;> exact ⟨rfl, id⟩

theorem portWrite_written {port : Nat} {d : Byte} {s t : State} (h : portWrite port d s = .ok t) : WrittenFrom s t := by
  unfold portWrite at h
  split at h
  · cases h; exact .refl _
  · split at h
    · cases h; exact ⟨rfl, id⟩
    · cases h; exact ⟨rfl, id⟩
    · cases h; exact ⟨rfl, id⟩
    · split at h
      · cases h
      · cases h; exact ⟨rfl, id⟩
    · cases h; exact scrollWrite_written _ _
    · cases h; exact addrWrite_written _ _
    · split at h
      · cases h
      · cases h; exact dataWrite_written _ _
    · cases h; exact .refl _

theorem dmaCopy_written {d : Byte} {n : Nat} {i : Byte} {s t : State} (h : dmaCopy d n i s = .ok t) : WrittenFrom s t := by
  induction n generalizing i s with
  | zero => cases h; exact .refl _
  | succ n ih =>
    simp only [dmaCopy] at h
    split at h
    · cases h
    · next v u hr =>
      have hu : WrittenFrom u (u.withPpu { u.ppu with oam := u.ppu.oam.set (s.ppu.oamAddr + i).toNat v }) := ⟨rfl, id⟩
      exact ((memRead_readFrom hr).written.trans hu).trans (ih h)

theorem ioWrite_written {a : Word} {d : Byte} {s t : State} (h : ioWrite a d s = .ok t) : WrittenFrom s t := by
  unfold ioWrite at h
  split at h
  · unfold oamDma at h
    split at h
    · cases h
    · next u hu =>
      cases h
      exact (dmaCopy_written hu).trans ⟨rfl, id⟩
  · split at h
    · cases h
      unfold strobeWrite
      split <;> exact ⟨rfl, id⟩
    · cases h; exact .refl _

/-- Everything a bus write can do. -/
theorem memWrite_written {a : Word} {v : Byte} {s t : State} (h : memWrite a v s = .ok t) : WrittenFrom s t := by
  unfold memWrite at h
  split at h
  · cases h
    exact ⟨rfl, id⟩
  · split at h
    · exact portWrite_written h
    · split at h
      · exact ioWrite_written h
      · cases h; exact .refl _

end Sys2Proof.Machine
end

