-- ==== Sys2Proof/Laws/Access.lean ====
section
/-! SUPPORT. What the access classes of Operands.lean can do: each answers exactly where its address has a meaning, and its next
state is the one its rule gives. -/

namespace Sys2Proof.Machine

/-- A bus read is refused under the name of port 4 or port 7. -/
theorem memRead_refusal {a : Word} {s : State} {r : Refusal} (h : memRead a s = .error r) :
    s.ppu.rendering = true ∧ (r = .portWhileRendering 4 ∨ r = .portWhileRendering 7) := by
  unfold memRead at h
  split at h
  · cases h
  · split at h
    · unfold portRead at h
      split at h
      · cases h
      · split at h
        · next hr => cases h; exact ⟨hr, .inl rfl⟩
        · cases h
      · split at h
        · next hr => cases h; exact ⟨hr, .inr rfl⟩
        · cases h
      · cases h
    · split at h <;> cases h

theorem dmaCopy_refusal {d : Byte} {n : Nat} {i : Byte} {s : State} {r : Refusal} (h : dmaCopy d n i s = .error r) :
    s.ppu.rendering = true ∧ (r = .portWhileRendering 4 ∨ r = .portWhileRendering 7) := by
  induction n generalizing i s with
  | zero => cases h
  | succ n ih =>
    simp only [dmaCopy] at h
    split at h
    · next hr => cases h; exact memRead_refusal hr
    · next v u hr =>
      have hk : u.ppu.rendering = s.ppu.rendering := by
        obtain ⟨vb, w, v', rb, h0, h1, k, rfl, -⟩ := (memRead_readFrom hr).touched
        rfl
      have := ih h
      exact ⟨hk ▸ this.1, this.2⟩

/-- A bus write is refused under the name of port 4 or port 7. -/
theorem memWrite_refusal {a : Word} {v : Byte} {s : State} {r : Refusal} (h : memWrite a v s = .error r) :
    s.ppu.rendering = true ∧ (r = .portWhileRendering 4 ∨ r = .portWhileRendering 7) := by
  unfold memWrite at h
  split at h
  · cases h
  · split at h
    · unfold portWrite at h
      split at h
      · cases h
      · split at h
        · cases h
        · cases h
        · cases h
        · split at h
          · next hr => cases h; exact ⟨hr, .inl rfl⟩
          · cases h
        · cases h
        · cases h
        · split at h
          · next hr => cases h; exact ⟨hr, .inr rfl⟩
          · cases h
        · cases h
    · split at h
      · unfold ioWrite at h
        split at h
        · unfold oamDma at h
          split at h
          · next hr => cases h; exact dmaCopy_refusal hr
          · cases h
        · split at h <;> cases h
      · cases h

/-- Every page but $20 to $3F can be copied while rendering. -/
theorem dmaCopy_error {d : Byte} {n : Nat} {i : Byte} {s : State} {r : Refusal} (h : dmaCopy d n i s = .error r) :
    0x20 ≤ d.toNat ∧ d.toNat ≤ 0x3F := by
  induction n generalizing i s with
  | zero => cases h
  | succ n ih =>
    simp only [dmaCopy] at h
    split at h
    · next hr =>
      have ha := memRead_error hr
      have hd := d.isLt
      have hi := i.isLt
      simp only [readable, renderingPort, wordOf_toNat, Bool.not_eq_false', Bool.and_eq_true, decide_eq_true_eq] at ha
      omega
    · exact ih h

/-- A bus write that is refused has no meaning by the spec. -/
theorem memWrite_error {a : Word} {v : Byte} {s : State} {r : Refusal} (h : memWrite a v s = .error r) : writable a v s = false := by
  have hr := (memWrite_refusal h).1
  unfold memWrite at h
  split at h
  · cases h
  · split at h
    · next h1 h2 =>
      have hp : a.toNat % 8 = 4 ∨ a.toNat % 8 = 7 := by
        unfold portWrite at h
        split at h
        · cases h
        · split at h
          · cases h
          · cases h
          · cases h
          · next hp => exact .inl hp
          · cases h
          · cases h
          · next hp => exact .inr hp
          · cases h
      have h1 : 0x2000 ≤ a.toNat := by omega
      rcases hp with hp | hp <;> simp [writable, renderingPort, hr, h1, h2, hp]
    · split at h
      · unfold ioWrite at h
        split at h
        · next ha =>
          unfold oamDma at h
          split at h
          · next hd =>
            have := dmaCopy_error hd
            simp [writable, hr, ha, this]
          · cases h
        · split at h <;> cases h
      · cases h

/-- A writable address answers. -/
theorem memWrite_answers {a : Word} {v : Byte} {s : State} (h : writable a v s = true) : ∃ t, memWrite a v s = .ok t := by
  cases hr : memWrite a v s with
  | ok t => exact ⟨t, rfl⟩
  | error r => rw [memWrite_error hr] at h; cases h

/-- Where a byte may be read and any byte written, both accesses of a read-modify-write answer. -/
theorem modifiable_answers {a : Word} {s : State} (h : modifiable a s = true) :
    ∃ v t, memRead a s = .ok (v, t) ∧ ∀ w, ∃ u, memWrite a w t = .ok u := by
  have hr : readable a s = true := by
    simp only [modifiable, readable, Bool.not_eq_true', Bool.and_eq_false_iff, Bool.or_eq_false_iff] at h ⊢
    exact h.imp_right (·.1)
  obtain ⟨v, t, ht⟩ := memRead_answers hr
  obtain ⟨vb, w, v', rb, h0, h1, k, rfl, -⟩ := (memRead_readFrom ht).touched
  refine ⟨_, _, ht, fun w => memWrite_answers ?_⟩
  change (!(s.ppu.rendering && _)) = true
  simp only [modifiable, Bool.not_eq_true', Bool.and_eq_false_iff, Bool.or_eq_false_iff] at h ⊢
  exact h.imp_right fun g => ⟨g.1, .inl (.inl g.2)⟩

/-- What the read class can do. -/
theorem readMem_next {m : MemMode} {base : Nat} {effect : Byte → State → State} {s t : State} (h : readMem m base effect s = .next t) :
    ∃ v u, memRead (effectiveAddress m s) s = .ok (v, u) ∧
      t = (effect v u).retire (s.pc + modeLength m) (base + (pageCrossed m s).toNat) := by
  unfold readMem at h
  split at h
  · cases h
  · next v u hr => cases h; exact ⟨v, u, hr, rfl⟩

/-- The read class completes where its address may be read. -/
theorem readMem_answers (m : MemMode) (base : Nat) (effect : Byte → State → State) (s : State)
    (h : readable (effectiveAddress m s) s = true) :
    ∃ v u, memRead (effectiveAddress m s) s = .ok (v, u) ∧
      readMem m base effect s = .next ((effect v u).retire (s.pc + modeLength m) (base + (pageCrossed m s).toNat)) := by
  obtain ⟨v, u, hr⟩ := memRead_answers h
  exact ⟨v, u, hr, by rw [readMem, hr]⟩

/-- What the write class can do. -/
theorem writeMem_next {m : MemMode} {base : Nat} {v : Byte} {s t : State} (h : writeMem m base v s = .next t) :
    ∃ u, memWrite (effectiveAddress m s) v s = .ok u ∧ t = u.retire (s.pc + modeLength m) base := by
  unfold writeMem at h
  split at h
  · cases h
  · next u hr => cases h; exact ⟨u, hr, rfl⟩

/-- The write class completes where its address may be written. -/
theorem writeMem_answers (m : MemMode) (base : Nat) (v : Byte) (s : State) (h : writable (effectiveAddress m s) v s = true) :
    ∃ u, memWrite (effectiveAddress m s) v s = .ok u ∧ writeMem m base v s = .next (u.retire (s.pc + modeLength m) base) := by
  obtain ⟨u, hr⟩ := memWrite_answers h
  exact ⟨u, hr, by rw [writeMem, hr]⟩

/-- What the read-modify-write class can do. -/
theorem modifyMem_next {m : MemMode} {base : Nat} {f : Byte → Status → Byte × Status} {s t : State}
    (h : modifyMem m base f s = .next t) :
    ∃ v u w, memRead (effectiveAddress m s) s = .ok (v, u) ∧ memWrite (effectiveAddress m s) (f v s.p).1 u = .ok w ∧
      t = (w.withP (f v s.p).2).retire (s.pc + modeLength m) base := by
  unfold modifyMem at h
  split at h
  · cases h
  · next v u hr =>
    split at h
    · cases h
    · next w hw => cases h; exact ⟨v, u, w, hr, hw, rfl⟩

/-- The read-modify-write class completes where its address may be read and written. -/
theorem modifyMem_answers (m : MemMode) (base : Nat) (f : Byte → Status → Byte × Status) (s : State)
    (h : modifiable (effectiveAddress m s) s = true) :
    ∃ v u w, memRead (effectiveAddress m s) s = .ok (v, u) ∧ memWrite (effectiveAddress m s) (f v s.p).1 u = .ok w ∧
      modifyMem m base f s = .next ((w.withP (f v s.p).2).retire (s.pc + modeLength m) base) := by
  obtain ⟨v, u, hr, hw⟩ := modifiable_answers h
  obtain ⟨w, hw⟩ := hw (f v s.p).1
  exact ⟨v, u, w, hr, hw, by rw [modifyMem, hr]; simp only [hw]⟩

/-- The pointer read of JMP ind changes no more than bus reads do. -/
theorem readPageWord_readFrom {a : Word} {s t : State} {v : Word} (h : readPageWord a s = .ok (v, t)) : ReadFrom s t := by
  unfold readPageWord at h
  split at h
  · cases h
  · next lo u hl =>
    split at h
    · cases h
    · next hi w hh => cases h; exact (memRead_readFrom hl).trans (memRead_readFrom hh)

/-- Fetching changes no more than bus reads do. -/
theorem fetch_readFrom {s t : State} {i : Instr} (h : fetch s = .ok (i, t)) : ReadFrom s t := by
  unfold fetch at h
  split at h
  · cases h
  · next op u ho =>
    have h0 := memRead_readFrom ho
    split at h
    · cases h; exact h0
    · cases h; exact h0
    · cases h; exact h0
    · split at h
      · cases h
      · next b v hb => cases h; exact h0.trans (memRead_readFrom hb)
    · split at h
      · cases h
      · next b v hb =>
        split at h
        · cases h
        · next c w hc => cases h; exact (h0.trans (memRead_readFrom hb)).trans (memRead_readFrom hc)

end Sys2Proof.Machine
end

