-- ==== Sys2Proof/Laws/Dots.lean ====
section
/-! SUPPORT. What the PPU's dots can do: the most a dot changes, and the parts of the invariant that speak of its timing. -/

namespace Sys2Proof.Machine

/-- The most that dots change: the three status flags, the position, the frame and its flag, NMI and the count of draws. -/
def dotTouched (s : State) (vb s0 so : Bool) (scanline dot frame : Nat) (fc nmi : Bool) (n : Nat) : State :=
  { s with
    ppu := { s.ppu with
      vblank := vb, sprite0Hit := s0, spriteOverflow := so, scanline := scanline, dot := dot, frame := frame, frameComplete := fc }
    nmiPending := nmi
    dotDraws := n }

/-- `t` is `s` after dots. -/
def DottedFrom (s t : State) : Prop :=
  t = dotTouched s t.ppu.vblank t.ppu.sprite0Hit t.ppu.spriteOverflow t.ppu.scanline t.ppu.dot t.ppu.frame t.ppu.frameComplete
    t.nmiPending t.dotDraws

theorem DottedFrom.touched {s t : State} (h : DottedFrom s t) :
    ∃ vb s0 so l d f fc nmi n, t = dotTouched s vb s0 so l d f fc nmi n :=
  ⟨_, _, _, _, _, _, _, _, _, h⟩

theorem DottedFrom.trans {s t u : State} (h : DottedFrom s t) (g : DottedFrom t u) : DottedFrom s u := by
  obtain ⟨vb, s0, so, l, d, f, fc, nmi, n, rfl⟩ := h.touched
  obtain ⟨vb', s0', so', l', d', f', fc', nmi', n', rfl⟩ := g.touched
  rfl

/-- Everything a dot can do. -/
theorem ppuStep_dotted (s : State) : DottedFrom s (ppuStep s) := by
  unfold ppuStep Ppu.dotActions Ppu.advanceDot
  split <;> (dsimp only; split) <;> (try split) <;> rfl

/-- Everything the three dots of a driver cycle can do. -/
theorem threeDots_dotted (s : State) : DottedFrom s (threeDots s) :=
  ((ppuStep_dotted s).trans (ppuStep_dotted _)).trans (ppuStep_dotted _)

/-- Each dot counts itself in the model's own count (log 3). -/
theorem ppuStep_dotDraws (s : State) : (ppuStep s).dotDraws = s.dotDraws + 1 := rfl

theorem threeDots_dotDraws (s : State) : (threeDots s).dotDraws = s.dotDraws + 3 := rfl

/-- Dots keep what they do not touch. -/
theorem DottedFrom.keeps {s t : State} (h : DottedFrom s t) :
    (s.memoriesOk → t.memoriesOk) ∧ (s.controlOk → t.controlOk) ∧ (s.Running → t.Running) := by
  obtain ⟨vb, s0, so, l, d, f, fc, nmi, n, rfl⟩ := h.touched
  exact ⟨id, id, id⟩

/-- A property of the PPU that one dot keeps is kept by the three of a driver cycle. -/
theorem threeDots_induct (P : State → Prop) (h : ∀ s, P s → P (ppuStep s)) (s : State) (hs : P s) : P (threeDots s) :=
  h _ (h _ (h _ hs))

/-- The two cases of a dot that is not the last of its scanline, and the last (60_exceptions.md R341 to R343). -/
theorem ppuStep_position (s : State) (h : s.ppu.positionOk) :
    (s.ppu.dot < 340 ∧ (ppuStep s).ppu.scanline = s.ppu.scanline ∧ (ppuStep s).ppu.dot = s.ppu.nextDot ∧
      (ppuStep s).ppu.frame = s.ppu.frame ∧ (ppuStep s).ppu.frameComplete = s.ppu.frameComplete ∧
      s.ppu.dot < s.ppu.nextDot ∧ s.ppu.nextDot ≤ 340) ∨
    (s.ppu.dot = 340 ∧ s.ppu.scanline < 261 ∧ (ppuStep s).ppu.scanline = s.ppu.scanline + 1 ∧ (ppuStep s).ppu.dot = 0 ∧
      (ppuStep s).ppu.frame = s.ppu.frame ∧ (ppuStep s).ppu.frameComplete = s.ppu.frameComplete) ∨
    (s.ppu.dot = 340 ∧ s.ppu.scanline = 261 ∧ (ppuStep s).ppu.scanline = 0 ∧ (ppuStep s).ppu.dot = 0 ∧
      (ppuStep s).ppu.frame = s.ppu.frame + 1 ∧ (ppuStep s).ppu.frameComplete = true) := by
  obtain ⟨hl, hd, -⟩ := h
  have e1 : (s.ppu.dotActions s.dotDraws).nextDot = s.ppu.nextDot := by unfold Ppu.dotActions; split <;> rfl
  have e2 : (s.ppu.dotActions s.dotDraws).scanline = s.ppu.scanline := by unfold Ppu.dotActions; split <;> rfl
  have e3 : (s.ppu.dotActions s.dotDraws).frame = s.ppu.frame := by unfold Ppu.dotActions; split <;> rfl
  have e4 : (s.ppu.dotActions s.dotDraws).frameComplete = s.ppu.frameComplete := by unfold Ppu.dotActions; split <;> rfl
  have hn : s.ppu.nextDot = 340 ∧ s.ppu.dot + 1 = 339 ∨ s.ppu.nextDot = s.ppu.dot + 1 := by
    unfold Ppu.nextDot
    split
    · next h => exact .inl ⟨rfl, h.2.2⟩
    · exact .inr rfl
  change (_ ∧ (Ppu.advanceDot _).scanline = _ ∧ (Ppu.advanceDot _).dot = _ ∧ (Ppu.advanceDot _).frame = _ ∧
    (Ppu.advanceDot _).frameComplete = _ ∧ _) ∨ (_ ∧ _ ∧ (Ppu.advanceDot _).scanline = _ ∧ (Ppu.advanceDot _).dot = _ ∧
    (Ppu.advanceDot _).frame = _ ∧ (Ppu.advanceDot _).frameComplete = _) ∨ (_ ∧ _ ∧ (Ppu.advanceDot _).scanline = _ ∧
    (Ppu.advanceDot _).dot = _ ∧ (Ppu.advanceDot _).frame = _ ∧ (Ppu.advanceDot _).frameComplete = _)
  simp only [Ppu.advanceDot, e1, e2, e3, e4]
  split
  · split
    · right; right; simp; omega
    · right; left; simp; omega
  · left; simp; omega

/-- A dot leaves the PPU at a dot of the frame. -/
theorem ppuStep_positionOk (s : State) (h : s.ppu.positionOk) : (ppuStep s).ppu.positionOk := by
  have hp := ppuStep_position s h
  obtain ⟨hl, hd, hs⟩ := h
  have hn : ¬(s.ppu.frame % 2 = 1 ∧ s.ppu.scanline = 261 ∧ s.ppu.nextDot = 339) := by
    unfold Ppu.nextDot
    split
    · omega
    · next h => omega
  refine ⟨by omega, by omega, fun hc => ?_⟩
  rcases hp with hp | hp | hp
  · rw [hp.2.1, hp.2.2.1, hp.2.2.2.1] at hc; exact hn hc
  · omega
  · omega

/-- What a dot does to the three status flags. -/
theorem ppuStep_flags (s : State) :
    (ppuStep s).ppu.vblank = (s.ppu.dotActions s.dotDraws).vblank ∧
    (ppuStep s).ppu.sprite0Hit = (s.ppu.dotActions s.dotDraws).sprite0Hit ∧
    (ppuStep s).ppu.spriteOverflow = (s.ppu.dotActions s.dotDraws).spriteOverflow := by
  change (Ppu.advanceDot _).vblank = _ ∧ (Ppu.advanceDot _).sprite0Hit = _ ∧ (Ppu.advanceDot _).spriteOverflow = _
  unfold Ppu.advanceDot
  split
  · split <;> exact ⟨rfl, rfl, rfl⟩
  · exact ⟨rfl, rfl, rfl⟩

/-- A dot keeps VBlank in its window. -/
theorem ppuStep_vblankOk (s : State) (hp : s.ppu.positionOk) (h : s.ppu.vblankOk) : (ppuStep s).ppu.vblankOk := by
  intro hv
  have hq := ppuStep_position s hp
  rw [(ppuStep_flags s).1] at hv
  unfold Ppu.dotActions at hv
  split at hv
  · cases hv
  · next hn =>
    simp only [Bool.or_eq_true, Ppu.atVblankEntry, Ppu.atPreRender, Bool.and_eq_true, beq_iff_eq] at hv hn
    have : (s.ppu.scanline = 241 ∧ 1 ≤ s.ppu.dot) ∨ (242 ≤ s.ppu.scanline ∧ s.ppu.scanline ≤ 260) ∨
        (s.ppu.scanline = 261 ∧ s.ppu.dot = 0) := by
      rcases hv with hv | hv
      · have := h hv; omega
      · omega
    have hd : s.ppu.nextDot = s.ppu.dot + 1 ∨ 338 ≤ s.ppu.dot := by unfold Ppu.nextDot; split <;> omega
    omega

/-- A dot keeps both sprite flags false in their window. -/
theorem ppuStep_spritesOk (s : State) (hp : s.ppu.positionOk) (h : s.ppu.spritesOk) : (ppuStep s).ppu.spritesOk := by
  intro hw
  have hq := ppuStep_position s hp
  rw [(ppuStep_flags s).2.1, (ppuStep_flags s).2.2]
  unfold Ppu.dotActions
  split
  · exact ⟨rfl, rfl⟩
  · next hn =>
    simp only [Ppu.atPreRender, Bool.and_eq_true, beq_iff_eq] at hn
    have hd : s.ppu.nextDot = s.ppu.dot + 1 ∨ 338 ≤ s.ppu.dot := by unfold Ppu.nextDot; split <;> omega
    have hs : s.ppu.scanline = 261 ∧ 2 ≤ s.ppu.dot := by omega
    obtain ⟨h0, h1⟩ := h (.inl hs)
    have hd : s.ppu.spriteDot = false := by
      simp only [Ppu.spriteDot, hs.1, beq_self_eq_true, Bool.true_and, Bool.and_eq_false_iff, Bool.not_eq_false']
      left; simp; omega
    simp [h0, h1, hd]

end Sys2Proof.Machine
end

