-- ==== Sys2Proof/Laws/Memories.lean ====
section
/-! SUPPORT. Every operation keeps the memories canonical and within their sizes, and an operation on one memory leaves the others
alone. -/

namespace Sys2Proof.Machine

/-- A write to RAM keeps the memories. -/
theorem State.memoriesOk.setRam {s : State} (h : s.memoriesOk) (k : Nat) (v : Byte) (hk : k < 0x800) :
    ({ s with ram := s.ram.set k v } : State).memoriesOk :=
  ⟨⟨Memory.set_wf _ _ _ h.1.1, Memory.set_within _ _ _ _ h.1.2 hk⟩, h.2⟩

/-- A write to OAM keeps the memories. -/
theorem State.memoriesOk.setOam {s : State} (h : s.memoriesOk) (k v : Byte) :
    (s.withPpu { s.ppu with oam := s.ppu.oam.set k.toNat v }).memoriesOk :=
  ⟨h.1, h.2.1, h.2.2.1, ⟨Memory.set_wf _ _ _ h.2.2.2.1.1, Memory.set_within _ _ _ _ h.2.2.2.1.2 k.isLt⟩, h.2.2.2.2⟩

theorem stackIndex_lt (sp : Byte) : stackIndex sp < 0x800 := by
  have := sp.isLt
  rw [stackIndex]; omega

/-- A push keeps the memories. -/
theorem State.memoriesOk.push {s : State} (h : s.memoriesOk) (v : Byte) : (s.push v).memoriesOk :=
  h.setRam _ v (stackIndex_lt _)

/-- Bus reads keep the memories. -/
theorem ReadFrom.memoriesOk {s t : State} (h : ReadFrom s t) (hs : s.memoriesOk) : t.memoriesOk := by
  obtain ⟨vb, w, v, rb, h0, h1, n, rfl, -⟩ := h.touched
  exact hs

theorem nametableIndex_lt (m : Mirroring) (a : Nat) : nametableIndex m a < 0x800 := by
  unfold nametableIndex
  split <;> omega

theorem paletteIndex_lt (a : Nat) : paletteIndex a < 0x20 := by
  unfold paletteIndex
  split <;> omega

/-- A write to PPU memory keeps the memories. -/
theorem ppuMemWrite_memoriesOk (a : Nat) (d : Byte) (s : State) (h : s.memoriesOk) : (ppuMemWrite a d s).memoriesOk := by
  obtain ⟨h1, h2, h3, h4, h5, h6, h7⟩ := h
  unfold ppuMemWrite
  split
  · split
    · exact ⟨h1, h2, h3, h4, h5, h6, h7⟩
    · exact ⟨h1, h2, h3, h4, h5,
        ⟨Memory.set_wf _ _ _ h6.1, Memory.set_within _ _ _ _ h6.2 (Nat.mod_lt _ h7)⟩, h7⟩
  · split
    · exact ⟨h1, ⟨Memory.set_wf _ _ _ h2.1, Memory.set_within _ _ _ _ h2.2 (nametableIndex_lt _ _)⟩, h3, h4, h5, h6, h7⟩
    · exact ⟨h1, h2, ⟨Memory.set_wf _ _ _ h3.1, Memory.set_within _ _ _ _ h3.2 (paletteIndex_lt _)⟩, h4, h5, h6, h7⟩

theorem portWrite_memoriesOk {port : Nat} {d : Byte} {s t : State} (hs : s.memoriesOk) (h : portWrite port d s = .ok t) :
    t.memoriesOk := by
  unfold portWrite at h
  split at h
  · cases h; exact hs
  · split at h
    · cases h; exact hs
    · cases h; exact hs
    · cases h; exact hs
    · split at h
      · cases h
      · cases h; exact hs.setOam _ _
    · cases h; unfold Ppu.scrollWrite; split <;> exact hs
    · cases h; unfold Ppu.addrWrite; split <;> exact hs
    · split at h
      · cases h
      · cases h; exact ppuMemWrite_memoriesOk _ _ _ hs
    · cases h; exact hs

theorem dmaCopy_memoriesOk {d : Byte} {n : Nat} {i : Byte} {s t : State} (hs : s.memoriesOk) (h : dmaCopy d n i s = .ok t) :
    t.memoriesOk := by
  induction n generalizing i s with
  | zero => cases h; exact hs
  | succ n ih =>
    simp only [dmaCopy] at h
    split at h
    · cases h
    · next v u hr => exact ih (((memRead_readFrom hr).memoriesOk hs).setOam _ _) h

theorem ioWrite_memoriesOk {a : Word} {d : Byte} {s t : State} (hs : s.memoriesOk) (h : ioWrite a d s = .ok t) : t.memoriesOk := by
  unfold ioWrite at h
  split at h
  · unfold oamDma at h
    split at h
    · cases h
    · next u hu =>
      have := dmaCopy_memoriesOk hs hu
      cases h
      exact this
  · split at h
    · cases h; unfold strobeWrite; split <;> exact hs
    · cases h; exact hs

/-- A bus write keeps the memories. -/
theorem memWrite_memoriesOk {a : Word} {v : Byte} {s t : State} (hs : s.memoriesOk) (h : memWrite a v s = .ok t) : t.memoriesOk := by
  unfold memWrite at h
  split at h
  · cases h; exact hs.setRam _ _ (Nat.mod_lt _ (by decide))
  · split at h
    · exact portWrite_memoriesOk hs h
    · split at h
      · exact ioWrite_memoriesOk hs h
      · cases h; exact hs

theorem prgOffset_lt (c : Cartridge) (a : Word) : prgOffset c a < c.prgSize.length := by
  refine Nat.mod_lt _ ?_
  cases c.prgSize <;> decide

/-- Placing a byte of a program keeps the memories. -/
theorem placeByte_memoriesOk (a : Word) (v : Byte) (s : State) (h : s.memoriesOk) : (placeByte a v s).memoriesOk := by
  unfold placeByte
  split
  · exact h.setRam _ _ (Nat.mod_lt _ (by decide))
  · split
    · exact ⟨h.1, h.2.1, h.2.2.1, h.2.2.2.1,
        ⟨Memory.set_wf _ _ _ h.2.2.2.2.1.1, Memory.set_within _ _ _ _ h.2.2.2.2.1.2 (prgOffset_lt _ _)⟩, h.2.2.2.2.2⟩
    · exact h

/-- A port write leaves RAM and the DMA stall alone; OAM changes only through port 4, and PPU memory only through port 7. -/
theorem portWrite_frame {port : Nat} {d : Byte} {s t : State} (h : portWrite port d s = .ok t) :
    t.ram = s.ram ∧ t.dmaStall = s.dmaStall ∧ (port ≠ 4 → t.ppu.oam = s.ppu.oam) ∧
      (port ≠ 7 → t.ppu.vram = s.ppu.vram ∧ t.ppu.palette = s.ppu.palette ∧ t.cart = s.cart) := by
  unfold portWrite at h
  split at h
  · cases h; exact ⟨rfl, rfl, fun _ => rfl, fun _ => ⟨rfl, rfl, rfl⟩⟩
  · split at h
    · cases h; exact ⟨rfl, rfl, fun _ => rfl, fun _ => ⟨rfl, rfl, rfl⟩⟩
    · cases h; exact ⟨rfl, rfl, fun _ => rfl, fun _ => ⟨rfl, rfl, rfl⟩⟩
    · cases h; exact ⟨rfl, rfl, fun _ => rfl, fun _ => ⟨rfl, rfl, rfl⟩⟩
    · split at h
      · cases h
      · cases h; exact ⟨rfl, rfl, fun h => absurd rfl h, fun _ => ⟨rfl, rfl, rfl⟩⟩
    · cases h; unfold Ppu.scrollWrite; split <;> exact ⟨rfl, rfl, fun _ => rfl, fun _ => ⟨rfl, rfl, rfl⟩⟩
    · cases h; unfold Ppu.addrWrite; split <;> exact ⟨rfl, rfl, fun _ => rfl, fun _ => ⟨rfl, rfl, rfl⟩⟩
    · split at h
      · cases h
      · cases h
        unfold dataWrite ppuMemWrite
        split
        · split <;> exact ⟨rfl, rfl, fun _ => rfl, fun h => absurd rfl h⟩
        · split <;> exact ⟨rfl, rfl, fun _ => rfl, fun h => absurd rfl h⟩
    · cases h; exact ⟨rfl, rfl, fun _ => rfl, fun _ => ⟨rfl, rfl, rfl⟩⟩

/-- The copy of an OAM DMA leaves RAM and PPU memory alone. -/
theorem dmaCopy_frame {d : Byte} {n : Nat} {i : Byte} {s t : State} (h : dmaCopy d n i s = .ok t) :
    t.ram = s.ram ∧ t.ppu.vram = s.ppu.vram ∧ t.ppu.palette = s.ppu.palette ∧ t.cart = s.cart := by
  induction n generalizing i s with
  | zero => cases h; exact ⟨rfl, rfl, rfl, rfl⟩
  | succ n ih =>
    simp only [dmaCopy] at h
    split at h
    · cases h
    · next v' u' hr =>
      have := ih h
      obtain ⟨vb, w, v, rb, h0, h1, k, rfl, -⟩ := (memRead_readFrom hr).touched
      exact this

/-- Where a bus write can land: RAM at its own byte below $2000, OAM through port 4 or $4014, PPU memory through port 7
(20_memory.md R64). -/
theorem memWrite_frame {a : Word} {v : Byte} {s t : State} (h : memWrite a v s = .ok t) :
    (a.toNat ≤ 0x1FFF → t = { s with ram := s.ram.set (ramIndex a) v }) ∧ (0x1FFF < a.toNat → t.ram = s.ram) ∧
      (¬(0x2000 ≤ a.toNat ∧ a.toNat ≤ 0x3FFF ∧ a.toNat % 8 = 4) → a ≠ 0x4014 → t.ppu.oam = s.ppu.oam) ∧
      (¬(0x2000 ≤ a.toNat ∧ a.toNat ≤ 0x3FFF ∧ a.toNat % 8 = 7) →
        t.ppu.vram = s.ppu.vram ∧ t.ppu.palette = s.ppu.palette ∧ t.cart = s.cart) := by
  unfold memWrite at h
  split at h
  · cases h; exact ⟨fun _ => rfl, fun h => by omega, fun _ _ => rfl, fun _ => ⟨rfl, rfl, rfl⟩⟩
  · split at h
    · obtain ⟨h1, -, h2, h3⟩ := portWrite_frame h
      exact ⟨fun h => by omega, fun _ => h1, fun h _ => h2 (by omega), fun h => h3 (by omega)⟩
    · split at h
      · unfold ioWrite at h
        split at h
        · next ha =>
          unfold oamDma at h
          split at h
          · cases h
          · next u hu =>
            have := dmaCopy_frame hu
            cases h
            exact ⟨fun h => by omega, fun _ => this.1, fun _ h => absurd ha h, fun _ => this.2⟩
        · split at h
          · cases h
            unfold strobeWrite
            split <;> exact ⟨fun h => by omega, fun _ => rfl, fun _ _ => rfl, fun _ => ⟨rfl, rfl, rfl⟩⟩
          · cases h; exact ⟨fun h => by omega, fun _ => rfl, fun _ _ => rfl, fun _ => ⟨rfl, rfl, rfl⟩⟩
      · cases h; exact ⟨fun h => by omega, fun _ => rfl, fun _ _ => rfl, fun _ => ⟨rfl, rfl, rfl⟩⟩

end Sys2Proof.Machine
end

