-- ==== Sys2Proof/Laws/Exec.lean ====
section
/-! SUPPORT. What any instruction can do: bus accesses, then the CPU's own registers. -/

namespace Sys2Proof.Machine

/-- `t` is `s` with other CPU registers. -/
def CpuFrom (s t : State) : Prop :=
  t = { s with
    a := t.a, x := t.x, y := t.y, sp := t.sp, pc := t.pc, p := t.p, cyclesRemaining := t.cyclesRemaining, halted := t.halted,
    fault := t.fault }

/-- `t` is `s` after the bus accesses of an instruction and its changes to the CPU's registers, with the memories kept canonical. -/
def ExecFrom (s t : State) : Prop :=
  ∃ u, WrittenFrom s u ∧ (s.memoriesOk → u.memoriesOk) ∧ CpuFrom u t

theorem ExecFrom.ofRead {s u t : State} (h : ReadFrom s u) (g : CpuFrom u t) : ExecFrom s t :=
  ⟨u, h.written, h.memoriesOk, g⟩

theorem ExecFrom.ofCpu {s t : State} (g : CpuFrom s t) : ExecFrom s t :=
  .ofRead (.refl s) g

theorem ExecFrom.memoriesOk {s t : State} (h : ExecFrom s t) (hs : s.memoriesOk) : t.memoriesOk := by
  obtain ⟨u, -, hm, g⟩ := h
  rw [CpuFrom] at g
  rw [g]
  exact hm hs

theorem ExecFrom.push {s t : State} (v : Byte) (h : ExecFrom s t) : ExecFrom s (t.push v) := by
  obtain ⟨u, hw, hm, g⟩ := h
  refine ⟨{ u with ram := (t.push v).ram }, hw.trans ⟨rfl, id⟩, fun hs => ?_, ?_⟩
  · have := hm hs
    have hr : t.ram = u.ram := by rw [CpuFrom] at g; rw [g]
    rw [State.push, hr]
    exact this.setRam _ v (stackIndex_lt _)
  · rw [CpuFrom] at g ⊢
    rw [g]
    rfl

theorem ExecFrom.cpu {s t w : State} (h : ExecFrom s t) (g : CpuFrom t w) : ExecFrom s w := by
  obtain ⟨u, hw, hm, k⟩ := h
  refine ⟨u, hw, hm, ?_⟩
  rw [CpuFrom] at g k ⊢
  rw [g, k]

/-- Pushing a word is bus writes. -/
theorem ExecFrom.pushWord {s t : State} (v : Word) (h : ExecFrom s t) : ExecFrom s (t.pushWord v) :=
  (h.push _).push _

theorem ExecFrom.refl (s : State) : ExecFrom s s := .ofCpu (s := s) (t := s) rfl

/-- Taking an interrupt changes the stack page and the CPU's registers. -/
theorem enterInterrupt_exec (ret : Word) (b : Bool) (v : Word) (s : State) : ExecFrom s (enterInterrupt ret b v s) :=
  ExecFrom.cpu (t := (s.pushWord ret).push (pack s.p b)) (((ExecFrom.refl s).pushWord _).push _) rfl

theorem writeMem_exec {m : MemMode} {base : Nat} {v : Byte} {s t : State} (h : writeMem m base v s = .next t) : ExecFrom s t := by
  obtain ⟨u, hw, rfl⟩ := writeMem_next h
  exact ⟨u, memWrite_written hw, fun hs => memWrite_memoriesOk hs hw, rfl⟩

theorem modifyMem_exec {m : MemMode} {base : Nat} {f : Byte → Status → Byte × Status} {s t : State}
    (h : modifyMem m base f s = .next t) : ExecFrom s t := by
  obtain ⟨v, u, w, hr, hw, rfl⟩ := modifyMem_next h
  exact ⟨w, (memRead_readFrom hr).written.trans (memWrite_written hw),
    fun hs => memWrite_memoriesOk ((memRead_readFrom hr).memoriesOk hs) hw, rfl⟩

theorem branch_exec {c : Bool} {off : Byte} {s t : State} (h : branch c off s = .next t) : ExecFrom s t := by
  unfold branch at h
  split at h <;> (cases h; exact .ofCpu rfl)

theorem jmpInd_exec {a : Word} {s t : State} (h : execJmpInd a s = .next t) : ExecFrom s t := by
  unfold execJmpInd at h
  split at h
  · cases h
  · next hr => cases h; exact .ofRead (readPageWord_readFrom hr) rfl

/-- Everything an instruction can do. -/
theorem exec_from {i : Instr} {s t : State} (h : exec i s = .next t) : ExecFrom s t := by
  cases i
  case pha => cases h; exact ((ExecFrom.refl s).push _).cpu rfl
  case php => cases h; exact ((ExecFrom.refl s).push _).cpu rfl
  case jsrAbs a => cases h; exact ((ExecFrom.refl s).pushWord _).cpu rfl
  case brk => cases h; exact enterInterrupt_exec _ _ _ _
  case jmpInd a => exact jmpInd_exec h
  all_goals
    first
    | exact branch_exec h
    | exact writeMem_exec h
    | exact modifyMem_exec h
    | (obtain ⟨v, u, hr, rfl⟩ := readMem_next h; exact .ofRead (memRead_readFrom hr) rfl)
    | (cases h; exact .ofCpu rfl)

/-- Only an undefined opcode changes the halted flag and its record (60_exceptions.md R300). -/
theorem exec_halted {i : Instr} {s t : State} (h : exec i s = .next t) :
    (i.mnemonic ≠ .illegal ∧ t.halted = s.halted ∧ t.fault = s.fault) ∨
      ∃ op, i = .illegal op ∧ t.halted = true ∧ t.fault = some (s.pc, op) := by
  cases i
  case illegal op => cases h; exact .inr ⟨op, rfl, rfl, rfl⟩
  all_goals
    left
    refine ⟨by simp [Instr.mnemonic], ?_⟩
    first
    | (cases h; exact ⟨rfl, rfl⟩)
    | (obtain ⟨v, u, hr, rfl⟩ := readMem_next h
       obtain ⟨vb, w, v', rb, h0, h1, n, rfl, -⟩ := (memRead_readFrom hr).touched
       exact ⟨rfl, rfl⟩)
    | (obtain ⟨u, hw, rfl⟩ := writeMem_next h
       obtain ⟨ram, q, k, chr, stall, n, rfl, -⟩ := (memWrite_written hw).touched
       exact ⟨rfl, rfl⟩)
    | (obtain ⟨v, u, w, hr, hw, rfl⟩ := modifyMem_next h
       obtain ⟨ram, q, k, chr, stall, n, rfl, -⟩ := ((memRead_readFrom hr).written.trans (memWrite_written hw)).touched
       exact ⟨rfl, rfl⟩)
    | (simp only [exec, execBcc, execBcs, execBeq, execBmi, execBne, execBpl, execBvc, execBvs, branch] at h
       split at h <;> (cases h; exact ⟨rfl, rfl⟩))
    | (simp only [exec, execJmpInd] at h
       split at h
       · cases h
       · next hr =>
         cases h
         obtain ⟨vb, w, v', rb, h0, h1, n, rfl, -⟩ := (readPageWord_readFrom hr).touched
         exact ⟨rfl, rfl⟩)

end Sys2Proof.Machine
end

