-- ==== Sys2Proof/Laws/Fetch.lean ====
section
/-! SUPPORT. Fetching from addresses whose reads change nothing, one lemma for each shape of an instruction, and the opcode map
against the list of undefined opcodes. -/

namespace Sys2Proof.Machine

/-- Whether a cell of the opcode map is an undefined opcode. -/
def isUndefined : Shape → Bool
  | .undefined => true
  | .implied _ => false
  | .padded _ => false
  | .byte _ => false
  | .word _ => false

/-- The opcode map and R106's list of undefined opcodes agree on every byte (30_encoding.md R105 to R107). -/
theorem opcodeShape_undefined (op : Byte) : isUndefined (opcodeShape op) = undefinedOpcodes.contains op := by
  revert op; decide +kernel

theorem opcodeShape_of_undefined {op : Byte} (h : undefinedOpcodes.contains op = true) : opcodeShape op = .undefined := by
  rw [← opcodeShape_undefined] at h
  cases hs : opcodeShape op <;> rw [hs] at h <;> first | rfl | cases h

theorem fetch_undefined {s t : State} {op : Byte} (h : memRead s.pc s = .ok (op, t)) (hs : opcodeShape op = .undefined) :
    fetch s = .ok (.illegal op, t) := by
  rw [fetch, h]; simp only [hs]

theorem fetch_implied {s t : State} {op : Byte} {i : Instr} (h : memRead s.pc s = .ok (op, t)) (hs : opcodeShape op = .implied i) :
    fetch s = .ok (i, t) := by
  rw [fetch, h]; simp only [hs]

theorem fetch_padded {s t : State} {op : Byte} {i : Instr} (h : memRead s.pc s = .ok (op, t)) (hs : opcodeShape op = .padded i) :
    fetch s = .ok (i, t) := by
  rw [fetch, h]; simp only [hs]

theorem fetch_byte {s t u : State} {op b1 : Byte} {f : Byte → Instr} (h : memRead s.pc s = .ok (op, t))
    (h1 : memRead (s.pc + 1) t = .ok (b1, u)) (hs : opcodeShape op = .byte f) : fetch s = .ok (f b1, u) := by
  rw [fetch, h]; simp only [hs]; rw [h1]

theorem fetch_word {s t u w : State} {op b1 b2 : Byte} {f : Word → Instr} (h : memRead s.pc s = .ok (op, t))
    (h1 : memRead (s.pc + 1) t = .ok (b1, u)) (h2 : memRead (s.pc + 2) u = .ok (b2, w)) (hs : opcodeShape op = .word f) :
    fetch s = .ok (f (wordOf b1 b2), w) := by
  rw [fetch, h]; simp only [hs]; rw [h1]; simp only []; rw [h2]

/-- Where the three bytes at PC can be read with no effect, fetching gives the instruction they make. -/
theorem fetch_bytes {s : State} {op b1 b2 : Byte} (h : memRead s.pc s = .ok (op, s)) (h1 : memRead (s.pc + 1) s = .ok (b1, s))
    (h2 : memRead (s.pc + 2) s = .ok (b2, s)) : fetch s = .ok (decodeBytes op b1 b2, s) := by
  rw [decodeBytes]
  cases hs : opcodeShape op with
  | undefined => exact fetch_undefined h hs
  | implied i => exact fetch_implied h hs
  | padded i => exact fetch_padded h hs
  | byte f => exact fetch_byte h h1 hs
  | word f => exact fetch_word h h1 h2 hs

/-- What `decode` makes of at least three bytes is what `decodeBytes` makes of them. -/
theorem decode_bytes (op b1 b2 : Byte) (rest : List Byte) :
    ∃ more, decode (op :: b1 :: b2 :: rest) = .ok (decodeBytes op b1 b2, more) := by
  simp only [decode, decodeBytes]
  cases opcodeShape op
  · exact ⟨_, rfl⟩
  · exact ⟨_, rfl⟩
  · exact ⟨_, rfl⟩
  · exact ⟨_, rfl⟩
  · exact ⟨_, rfl⟩

/-- Every cell of the opcode map gives well-formed instructions only (30_encoding.md R107). -/
theorem opcodeShape_wellFormed (op : Byte) :
    match opcodeShape op with
    | .undefined => undefinedOpcodes.contains op = true
    | .implied i => i.wellFormed = true
    | .padded i => i.wellFormed = true
    | .byte f => ∀ b, (f b).wellFormed = true
    | .word f => ∀ a, (f a).wellFormed = true := by
  obtain ⟨n, hn, rfl⟩ : ∃ n, n < 256 ∧ op = BitVec.ofNat 8 n := ⟨op.toNat, op.isLt, by simp⟩
  interval_cases n <;> first | exact fun _ => rfl | rfl

/-- A fetched instruction is well-formed: an undefined opcode carries its own byte. -/
theorem fetch_wellFormed {s t : State} {i : Instr} (h : fetch s = .ok (i, t)) : i.wellFormed = true := by
  unfold fetch at h
  split at h
  · cases h
  · next op u _ =>
    have hw := opcodeShape_wellFormed op
    split at h
    · next hs => rw [hs] at hw; cases h; exact hw
    · next hs => rw [hs] at hw; cases h; exact hw
    · next hs => rw [hs] at hw; cases h; exact hw
    · next hs =>
      rw [hs] at hw
      split at h
      · cases h
      · cases h; exact hw _
    · next hs =>
      rw [hs] at hw
      split at h
      · cases h
      · split at h
        · cases h
        · cases h; exact hw _

end Sys2Proof.Machine
end

