-- ==== Sys2Proof/Laws/Flags.lean ====
section
/-! SUPPORT. The flag computations and the byte operations as numbers. -/

namespace Sys2Proof.Machine

theorem setNZ_eq_num (p : Status) (r : Byte) : setNZ p r = { p with n := decide (128 ≤ r.toNat), z := decide (r.toNat = 0) } := by
  simp only [setNZ, getLsbD_seven]
  congr 1
  rw [beq_eq_decide]
  simp [← BitVec.toNat_inj]

/-- The packed byte, bit 5 always 1 (10_state.md R35). -/
theorem pack_toNat (p : Status) (b : Bool) : (pack p b).toNat =
    128 * p.n.toNat + 64 * p.v.toNat + 32 + 16 * b.toNat + 8 * p.d.toNat + 4 * p.i.toNat + 2 * p.z.toNat + p.c.toNat := by
  obtain ⟨n, v, b', d, i, z, c⟩ := p
  revert n v b' d i z c b
  decide

/-- A pulled status byte gives back the flags it was packed from, with B the break bit. -/
theorem unpack_pack (p : Status) (b : Bool) : unpack (pack p b) = { p with b := b } := by
  obtain ⟨n, v, b', d, i, z, c⟩ := p
  revert n v b' d i z c b
  decide

theorem sumResult_toNat (a m : Byte) (c : Bool) : (sumResult a m c).toNat = (a.toNat + m.toNat + c.toNat) % 256 := by
  simp [sumResult, exactSum]

/-- The overflow mask compares the sign bits of the operands and of the result (42_arith_logic.md R180). -/
theorem signs_eq_num (a r m : Byte) : ((~~~(a ^^^ m) &&& (a ^^^ r) &&& 0x80) != 0) =
    decide (a.toNat / 128 = m.toNat / 128 ∧ a.toNat / 128 ≠ r.toNat / 128) := by
  have h : ∀ x : Byte, ((x &&& 0x80) != 0) = x.getLsbD 7 := by decide +kernel
  have h7 : ∀ x : Byte, x.getLsbD 7 = decide (x.toNat / 128 = 1) := by decide +kernel
  rw [h]
  simp only [BitVec.getLsbD_and, BitVec.getLsbD_not, BitVec.getLsbD_xor]
  rw [h7, h7, h7]
  have := a.isLt; have := r.isLt; have := m.isLt
  by_cases h1 : a.toNat / 128 = 1 <;> by_cases h2 : m.toNat / 128 = 1 <;> by_cases h3 : r.toNat / 128 = 1 <;>
    simp [h1, h2, h3] <;> omega

theorem not_toNat (m : Byte) : (~~~m).toNat = 255 - m.toNat := by
  have := m.isLt
  simp

theorem shiftLeft_toNat (m : Byte) (p : Status) : (shiftLeft m p).1.toNat = m.toNat * 2 % 256 := by
  simp [shiftLeft, Nat.shiftLeft_eq]

theorem shiftRight_toNat (m : Byte) (p : Status) : (shiftRight m p).1.toNat = m.toNat / 2 := by
  simp [shiftRight, Nat.shiftRight_eq_div_pow]

theorem rotateLeft_toNat (m : Byte) (p : Status) : (rotateLeft m p).1.toNat = (m.toNat * 2 + p.c.toNat) % 256 := by
  have h : ∀ (m : Byte) (c : Bool), ((m <<< 1) ||| (BitVec.ofBool c).setWidth 8).toNat = (m.toNat * 2 + c.toNat) % 256 := by
    decide +kernel
  exact h m p.c

theorem rotateRight_toNat (m : Byte) (p : Status) : (rotateRight m p).1.toNat = m.toNat / 2 + 128 * p.c.toNat := by
  have h : ∀ (m : Byte) (c : Bool), ((m >>> 1) ||| ((BitVec.ofBool c).setWidth 8 <<< 7)).toNat = m.toNat / 2 + 128 * c.toNat := by
    decide +kernel
  exact h m p.c

/-- The second address of an indirect jump stays in the pointer's page (40_addressing.md R140). -/
theorem pageNext_eq (a : Word) : pageNext a = wordOf (lowByte (a + 1)) (highByte a) := by
  apply BitVec.eq_of_getElem_eq
  intro i hi
  simp only [pageNext, wordOf, lowByte, highByte]
  rw [BitVec.getElem_or, BitVec.getElem_and, BitVec.getElem_and, BitVec.getElem_append]
  interval_cases i <;> simp

end Sys2Proof.Machine
end

