-- ==== Sys2Proof/Laws/PerInstr.lean ====
section
/-! SUPPORT. The per-instruction family EncodeLength: an instruction's bytes are as many as its operand form says, and BRK has two
(30_encoding.md R101). -/

namespace Sys2Proof.Laws.EncodeLength

/-- The encoding of an instruction has the length of R101. -/
def Statement (i : Instr) : Prop := (encode i).length = i.length

theorem ldaImm (v : Byte) : Statement (.ldaImm v) := rfl

theorem ldaZp (z : Byte) : Statement (.ldaZp z) := rfl

theorem ldaZpx (z : Byte) : Statement (.ldaZpx z) := rfl

theorem ldaAbs (a : Word) : Statement (.ldaAbs a) := rfl

theorem ldaAbx (a : Word) : Statement (.ldaAbx a) := rfl

theorem ldaAby (a : Word) : Statement (.ldaAby a) := rfl

theorem ldaIzx (z : Byte) : Statement (.ldaIzx z) := rfl

theorem ldaIzy (z : Byte) : Statement (.ldaIzy z) := rfl

theorem ldxImm (v : Byte) : Statement (.ldxImm v) := rfl

theorem ldxZp (z : Byte) : Statement (.ldxZp z) := rfl

theorem ldxZpy (z : Byte) : Statement (.ldxZpy z) := rfl

theorem ldxAbs (a : Word) : Statement (.ldxAbs a) := rfl

theorem ldxAby (a : Word) : Statement (.ldxAby a) := rfl

theorem ldyImm (v : Byte) : Statement (.ldyImm v) := rfl

theorem ldyZp (z : Byte) : Statement (.ldyZp z) := rfl

theorem ldyZpx (z : Byte) : Statement (.ldyZpx z) := rfl

theorem ldyAbs (a : Word) : Statement (.ldyAbs a) := rfl

theorem ldyAbx (a : Word) : Statement (.ldyAbx a) := rfl

theorem staZp (z : Byte) : Statement (.staZp z) := rfl

theorem staZpx (z : Byte) : Statement (.staZpx z) := rfl

theorem staAbs (a : Word) : Statement (.staAbs a) := rfl

theorem staAbx (a : Word) : Statement (.staAbx a) := rfl

theorem staAby (a : Word) : Statement (.staAby a) := rfl

theorem staIzx (z : Byte) : Statement (.staIzx z) := rfl

theorem staIzy (z : Byte) : Statement (.staIzy z) := rfl

theorem stxZp (z : Byte) : Statement (.stxZp z) := rfl

theorem stxZpy (z : Byte) : Statement (.stxZpy z) := rfl

theorem stxAbs (a : Word) : Statement (.stxAbs a) := rfl

theorem styZp (z : Byte) : Statement (.styZp z) := rfl

theorem styZpx (z : Byte) : Statement (.styZpx z) := rfl

theorem styAbs (a : Word) : Statement (.styAbs a) := rfl

theorem tax : Statement .tax := rfl

theorem tay : Statement .tay := rfl

theorem txa : Statement .txa := rfl

theorem tya : Statement .tya := rfl

theorem tsx : Statement .tsx := rfl

theorem txs : Statement .txs := rfl

theorem adcImm (v : Byte) : Statement (.adcImm v) := rfl

theorem adcZp (z : Byte) : Statement (.adcZp z) := rfl

theorem adcZpx (z : Byte) : Statement (.adcZpx z) := rfl

theorem adcAbs (a : Word) : Statement (.adcAbs a) := rfl

theorem adcAbx (a : Word) : Statement (.adcAbx a) := rfl

theorem adcAby (a : Word) : Statement (.adcAby a) := rfl

theorem adcIzx (z : Byte) : Statement (.adcIzx z) := rfl

theorem adcIzy (z : Byte) : Statement (.adcIzy z) := rfl

theorem sbcImm (v : Byte) : Statement (.sbcImm v) := rfl

theorem sbcZp (z : Byte) : Statement (.sbcZp z) := rfl

theorem sbcZpx (z : Byte) : Statement (.sbcZpx z) := rfl

theorem sbcAbs (a : Word) : Statement (.sbcAbs a) := rfl

theorem sbcAbx (a : Word) : Statement (.sbcAbx a) := rfl

theorem sbcAby (a : Word) : Statement (.sbcAby a) := rfl

theorem sbcIzx (z : Byte) : Statement (.sbcIzx z) := rfl

theorem sbcIzy (z : Byte) : Statement (.sbcIzy z) := rfl

theorem andImm (v : Byte) : Statement (.andImm v) := rfl

theorem andZp (z : Byte) : Statement (.andZp z) := rfl

theorem andZpx (z : Byte) : Statement (.andZpx z) := rfl

theorem andAbs (a : Word) : Statement (.andAbs a) := rfl

theorem andAbx (a : Word) : Statement (.andAbx a) := rfl

theorem andAby (a : Word) : Statement (.andAby a) := rfl

theorem andIzx (z : Byte) : Statement (.andIzx z) := rfl

theorem andIzy (z : Byte) : Statement (.andIzy z) := rfl

theorem oraImm (v : Byte) : Statement (.oraImm v) := rfl

theorem oraZp (z : Byte) : Statement (.oraZp z) := rfl

theorem oraZpx (z : Byte) : Statement (.oraZpx z) := rfl

theorem oraAbs (a : Word) : Statement (.oraAbs a) := rfl

theorem oraAbx (a : Word) : Statement (.oraAbx a) := rfl

theorem oraAby (a : Word) : Statement (.oraAby a) := rfl

theorem oraIzx (z : Byte) : Statement (.oraIzx z) := rfl

theorem oraIzy (z : Byte) : Statement (.oraIzy z) := rfl

theorem eorImm (v : Byte) : Statement (.eorImm v) := rfl

theorem eorZp (z : Byte) : Statement (.eorZp z) := rfl

theorem eorZpx (z : Byte) : Statement (.eorZpx z) := rfl

theorem eorAbs (a : Word) : Statement (.eorAbs a) := rfl

theorem eorAbx (a : Word) : Statement (.eorAbx a) := rfl

theorem eorAby (a : Word) : Statement (.eorAby a) := rfl

theorem eorIzx (z : Byte) : Statement (.eorIzx z) := rfl

theorem eorIzy (z : Byte) : Statement (.eorIzy z) := rfl

theorem cmpImm (v : Byte) : Statement (.cmpImm v) := rfl

theorem cmpZp (z : Byte) : Statement (.cmpZp z) := rfl

theorem cmpZpx (z : Byte) : Statement (.cmpZpx z) := rfl

theorem cmpAbs (a : Word) : Statement (.cmpAbs a) := rfl

theorem cmpAbx (a : Word) : Statement (.cmpAbx a) := rfl

theorem cmpAby (a : Word) : Statement (.cmpAby a) := rfl

theorem cmpIzx (z : Byte) : Statement (.cmpIzx z) := rfl

theorem cmpIzy (z : Byte) : Statement (.cmpIzy z) := rfl

theorem cpxImm (v : Byte) : Statement (.cpxImm v) := rfl

theorem cpxZp (z : Byte) : Statement (.cpxZp z) := rfl

theorem cpxAbs (a : Word) : Statement (.cpxAbs a) := rfl

theorem cpyImm (v : Byte) : Statement (.cpyImm v) := rfl

theorem cpyZp (z : Byte) : Statement (.cpyZp z) := rfl

theorem cpyAbs (a : Word) : Statement (.cpyAbs a) := rfl

theorem bitZp (z : Byte) : Statement (.bitZp z) := rfl

theorem bitAbs (a : Word) : Statement (.bitAbs a) := rfl

theorem incZp (z : Byte) : Statement (.incZp z) := rfl

theorem incZpx (z : Byte) : Statement (.incZpx z) := rfl

theorem incAbs (a : Word) : Statement (.incAbs a) := rfl

theorem incAbx (a : Word) : Statement (.incAbx a) := rfl

theorem decZp (z : Byte) : Statement (.decZp z) := rfl

theorem decZpx (z : Byte) : Statement (.decZpx z) := rfl

theorem decAbs (a : Word) : Statement (.decAbs a) := rfl

theorem decAbx (a : Word) : Statement (.decAbx a) := rfl

theorem inx : Statement .inx := rfl

theorem iny : Statement .iny := rfl

theorem dex : Statement .dex := rfl

theorem dey : Statement .dey := rfl

theorem aslAcc : Statement .aslAcc := rfl

theorem aslZp (z : Byte) : Statement (.aslZp z) := rfl

theorem aslZpx (z : Byte) : Statement (.aslZpx z) := rfl

theorem aslAbs (a : Word) : Statement (.aslAbs a) := rfl

theorem aslAbx (a : Word) : Statement (.aslAbx a) := rfl

theorem lsrAcc : Statement .lsrAcc := rfl

theorem lsrZp (z : Byte) : Statement (.lsrZp z) := rfl

theorem lsrZpx (z : Byte) : Statement (.lsrZpx z) := rfl

theorem lsrAbs (a : Word) : Statement (.lsrAbs a) := rfl

theorem lsrAbx (a : Word) : Statement (.lsrAbx a) := rfl

theorem rolAcc : Statement .rolAcc := rfl

theorem rolZp (z : Byte) : Statement (.rolZp z) := rfl

theorem rolZpx (z : Byte) : Statement (.rolZpx z) := rfl

theorem rolAbs (a : Word) : Statement (.rolAbs a) := rfl

theorem rolAbx (a : Word) : Statement (.rolAbx a) := rfl

theorem rorAcc : Statement .rorAcc := rfl

theorem rorZp (z : Byte) : Statement (.rorZp z) := rfl

theorem rorZpx (z : Byte) : Statement (.rorZpx z) := rfl

theorem rorAbs (a : Word) : Statement (.rorAbs a) := rfl

theorem rorAbx (a : Word) : Statement (.rorAbx a) := rfl

theorem pha : Statement .pha := rfl

theorem php : Statement .php := rfl

theorem pla : Statement .pla := rfl

theorem plp : Statement .plp := rfl

theorem jmpAbs (a : Word) : Statement (.jmpAbs a) := rfl

theorem jmpInd (a : Word) : Statement (.jmpInd a) := rfl

theorem jsrAbs (a : Word) : Statement (.jsrAbs a) := rfl

theorem rts : Statement .rts := rfl

theorem bcc (off : Byte) : Statement (.bcc off) := rfl

theorem bcs (off : Byte) : Statement (.bcs off) := rfl

theorem beq (off : Byte) : Statement (.beq off) := rfl

theorem bmi (off : Byte) : Statement (.bmi off) := rfl

theorem bne (off : Byte) : Statement (.bne off) := rfl

theorem bpl (off : Byte) : Statement (.bpl off) := rfl

theorem bvc (off : Byte) : Statement (.bvc off) := rfl

theorem bvs (off : Byte) : Statement (.bvs off) := rfl

theorem brk : Statement .brk := rfl

theorem rti : Statement .rti := rfl

theorem clc : Statement .clc := rfl

theorem cld : Statement .cld := rfl

theorem cli : Statement .cli := rfl

theorem clv : Statement .clv := rfl

theorem sec : Statement .sec := rfl

theorem sed : Statement .sed := rfl

theorem sei : Statement .sei := rfl

theorem nop : Statement .nop := rfl

theorem illegal (op : Byte) : Statement (.illegal op) := rfl

end Sys2Proof.Laws.EncodeLength
end

