-- ==== Sys2Proof/Laws/Refusals.lean ====
section
/-! SUPPORT. Exactly when a bus access is refused, and with it each access class (93_implementation_defined.md U4). -/

namespace Sys2Proof.Machine

/-- When the PPU renders (60_exceptions.md R335, R338). -/
theorem Ppu.rendering_iff (p : Ppu) : p.rendering = true ↔
    (p.mask.getLsbD 3 = true ∨ p.mask.getLsbD 4 = true) ∧ (p.scanline ≤ 239 ∨ p.scanline = 261) := by
  simp [Ppu.rendering]

/-- The address is PPU port 4 or 7 in a state that renders, and the refusal names that port. -/
def PortRefusal (a : Word) (s : State) (r : Refusal) : Prop :=
  s.ppu.rendering = true ∧ 0x2000 ≤ a.toNat ∧ a.toNat ≤ 0x3FFF ∧
    ((a.toNat % 8 = 4 ∧ r = .portWhileRendering 4) ∨ (a.toNat % 8 = 7 ∧ r = .portWhileRendering 7))

/-- Bus reads do not change whether the PPU renders. -/
theorem ReadFrom.portRefusal {s t : State} (h : ReadFrom s t) (a : Word) (r : Refusal) : PortRefusal a t r ↔ PortRefusal a s r := by
  obtain ⟨vb, w, v, rb, h0, h1, n, rfl, -⟩ := h.touched
  exact Iff.rfl

theorem memRead_error_iff (a : Word) (s : State) (r : Refusal) : memRead a s = .error r ↔ PortRefusal a s r := by
  constructor
  · intro h
    have hr := (memRead_refusal h).1
    unfold memRead at h
    split at h
    · cases h
    · split at h
      · next h1 h2 =>
        refine ⟨hr, by omega, h2, ?_⟩
        unfold portRead at h
        split at h
        · cases h
        · next hp => rw [if_pos hr] at h; cases h; exact .inl ⟨hp, rfl⟩
        · next hp => rw [if_pos hr] at h; cases h; exact .inr ⟨hp, rfl⟩
        · cases h
      · split at h <;> cases h
  · rintro ⟨hr, h1, h2, h | h⟩ <;>
      rw [memRead, if_neg (by omega), if_pos h2, h.1, h.2, portRead, if_pos hr]

/-- A write of a port answers but for ports 4 and 7 while rendering. -/
theorem portWrite_error_iff (port : Nat) (v : Byte) (s : State) (r : Refusal) : portWrite port v s = .error r ↔
    s.ppu.rendering = true ∧ ((port = 4 ∧ r = .portWhileRendering 4) ∨ (port = 7 ∧ r = .portWhileRendering 7)) := by
  constructor
  · intro h
    unfold portWrite at h
    split at h
    · cases h
    · split at h <;> (try cases h) <;> (split at h <;> (try cases h))
      · next hr => exact ⟨hr, .inl ⟨rfl, rfl⟩⟩
      · next hr => exact ⟨hr, .inr ⟨rfl, rfl⟩⟩
  · rintro ⟨hr, h | h⟩ <;> rw [h.1, h.2, portWrite, if_neg (by simp [warmupPort])] <;> simp only [hr, if_true]

/-- A copy of a page that holds the ports is refused at port 4, whose offset comes before that of port 7. -/
theorem dmaCopy_ports {d : Byte} {s : State} (hr : s.ppu.rendering = true) (h1 : 0x20 ≤ d.toNat) (h2 : d.toNat ≤ 0x3F) (n : Nat)
    {i : Byte} (hi : i.toNat ≤ 4) (hn : 5 ≤ n + i.toNat) : dmaCopy d n i s = .error (.portWhileRendering 4) := by
  induction n generalizing i s with
  | zero => omega
  | succ n ih =>
    have ha : (wordOf i d).toNat = d.toNat * 256 + i.toNat := wordOf_toNat i d
    rw [dmaCopy]
    by_cases h4 : i.toNat = 4
    · rw [(memRead_error_iff _ s (.portWhileRendering 4)).2 ⟨hr, by omega, by omega, .inl ⟨by omega, rfl⟩⟩]
    · obtain ⟨v, t, ht⟩ : ∃ v t, memRead (wordOf i d) s = .ok (v, t) := by
        cases hm : memRead (wordOf i d) s with
        | ok p => exact ⟨p.1, p.2, rfl⟩
        | error r => have := (memRead_error_iff _ _ _).1 hm; unfold PortRefusal at this; omega
      rw [ht]
      have hi1 : (i + 1).toNat = i.toNat + 1 := by rw [BitVec.toNat_add]; simp; omega
      refine ih ?_ (by omega) (by omega)
      obtain ⟨vb, w, v', rb, h0, h1, k, rfl, -⟩ := (memRead_readFrom ht).touched
      exact hr

theorem oamDma_error_iff (d : Byte) (s : State) (r : Refusal) : oamDma d s = .error r ↔
    s.ppu.rendering = true ∧ 0x20 ≤ d.toNat ∧ d.toNat ≤ 0x3F ∧ r = .portWhileRendering 4 := by
  constructor
  · intro h
    have hr : ∃ r', dmaCopy d 256 0 s = .error r' := by
      unfold oamDma at h
      split at h
      · next r' hd => exact ⟨r', hd⟩
      · cases h
    obtain ⟨r', hd⟩ := hr
    have hs := (dmaCopy_refusal hd).1
    have hp := dmaCopy_error hd
    rw [oamDma, dmaCopy_ports hs hp.1 hp.2 256 (by simp) (by simp)] at h
    cases h
    exact ⟨hs, hp.1, hp.2, rfl⟩
  · rintro ⟨hs, h1, h2, rfl⟩
    rw [oamDma, dmaCopy_ports hs h1 h2 256 (by simp) (by simp)]

/-- A bus write is refused at port 4 or 7, or by an OAM DMA of a page that holds the ports. -/
theorem memWrite_error_iff (a : Word) (v : Byte) (s : State) (r : Refusal) : memWrite a v s = .error r ↔
    PortRefusal a s r ∨
      (s.ppu.rendering = true ∧ a = 0x4014 ∧ 0x20 ≤ v.toNat ∧ v.toNat ≤ 0x3F ∧ r = .portWhileRendering 4) := by
  rw [memWrite]
  split
  · next h =>
    have hp : ¬PortRefusal a s r := by unfold PortRefusal; omega
    have ha : a ≠ 0x4014 := by rintro rfl; simp at h
    exact ⟨nofun, fun g => (g.elim hp fun g => ha g.2.1).elim⟩
  · split
    · next h1 h2 =>
      rw [portWrite_error_iff]
      constructor
      · rintro ⟨hr, h⟩
        exact .inl ⟨hr, by omega, h2, h⟩
      · rintro (⟨hr, -, -, h⟩ | ⟨-, rfl, -⟩)
        · exact ⟨hr, h⟩
        · simp at h2
    · next h1 h2 =>
      have hp : ¬PortRefusal a s r := by unfold PortRefusal; omega
      split
      · rw [ioWrite]
        split
        · next ha =>
          rw [oamDma_error_iff]
          exact ⟨fun g => .inr ⟨g.1, ha, g.2⟩, fun g => g.elim (absurd · hp) fun g => ⟨g.1, g.2.2⟩⟩
        · next ha => split <;> exact ⟨nofun, fun g => (g.elim hp fun g => ha g.2.1).elim⟩
      · next h3 =>
        have ha : a ≠ 0x4014 := by rintro rfl; simp at h3
        exact ⟨nofun, fun g => (g.elim hp fun g => ha g.2.1).elim⟩

theorem readMem_refused_iff (m : MemMode) (base : Nat) (effect : Byte → State → State) (s : State) (r : Refusal) :
    readMem m base effect s = .refused r ↔ PortRefusal (effectiveAddress m s) s r := by
  rw [← memRead_error_iff, readMem]
  split <;> simp_all

theorem writeMem_refused_iff (m : MemMode) (base : Nat) (v : Byte) (s : State) (r : Refusal) :
    writeMem m base v s = .refused r ↔ memWrite (effectiveAddress m s) v s = .error r := by
  rw [writeMem]
  split <;> simp_all

/-- A read-modify-write is refused where its read is, or by the OAM DMA that its write to $4014 starts. -/
theorem modifyMem_refused_iff (m : MemMode) (base : Nat) (f : Byte → Status → Byte × Status) (s : State) (r : Refusal) :
    modifyMem m base f s = .refused r ↔ PortRefusal (effectiveAddress m s) s r ∨
      (s.ppu.rendering = true ∧ effectiveAddress m s = 0x4014 ∧
        0x20 ≤ (f (Config.openBus s.openDraws 0x4014) s.p).1.toNat ∧ (f (Config.openBus s.openDraws 0x4014) s.p).1.toNat ≤ 0x3F ∧
        r = .portWhileRendering 4) := by
  have hx : effectiveAddress m s = 0x4014 → ¬PortRefusal (effectiveAddress m s) s r := by
    intro h; rw [h]; unfold PortRefusal; simp
  rw [modifyMem]
  cases hr : memRead (effectiveAddress m s) s with
  | error q =>
    have hq := hr
    rw [memRead_error_iff] at hq
    constructor
    · intro h; cases h; exact .inl hq
    · rintro (h | ⟨-, h, -⟩)
      · rw [← memRead_error_iff, hr] at h; cases h; rfl
      · rw [h] at hq; unfold PortRefusal at hq; simp at hq
  | ok p =>
    have hn : ¬PortRefusal (effectiveAddress m s) s r := by rw [← memRead_error_iff, hr]; nofun
    have ht := memRead_readFrom hr
    have hren : p.2.ppu.rendering = s.ppu.rendering := by
      obtain ⟨vb, w, v', rb, h0, h1, k, he, -⟩ := ht.touched
      rw [he]; rfl
    have hw := memWrite_error_iff (effectiveAddress m s) (f p.1 s.p).1 p.2 r
    rw [ht.portRefusal, hren] at hw
    have hv : effectiveAddress m s = 0x4014 → p.1 = Config.openBus s.openDraws 0x4014 := by
      intro h; rw [h] at hr; cases hr; rfl
    simp only [hn, false_or] at hw ⊢
    constructor
    · intro h
      have : memWrite (effectiveAddress m s) (f p.1 s.p).1 p.2 = .error r := by
        split at h
        · next he => cases h; exact he
        · cases h
      have := hw.1 this
      rw [← hv this.2.1]; exact this
    · intro h
      rw [← hv h.2.1] at h
      rw [hw.2 h]

/-- The indirect jump is refused at either byte of its pointer. -/
theorem execJmpInd_refused_iff (a : Word) (s : State) (r : Refusal) : execJmpInd a s = .refused r ↔
    PortRefusal a s r ∨ ((∀ q, ¬PortRefusal a s q) ∧ PortRefusal (wordOf (lowByte (a + 1)) (highByte a)) s r) := by
  rw [← pageNext_eq, execJmpInd, readPageWord]
  cases hr : memRead a s with
  | error q =>
    have hq := (memRead_error_iff _ _ _).1 hr
    constructor
    · intro h; cases h; exact .inl hq
    · rintro (h | h)
      · rw [← memRead_error_iff, hr] at h; cases h; rfl
      · exact absurd hq (h.1 q)
  | ok p =>
    have hn : ∀ q, ¬PortRefusal a s q := by intro q; rw [← memRead_error_iff, hr]; nofun
    have ht := memRead_readFrom hr
    simp only [hn, false_or, not_false_eq_true, implies_true, true_and]
    rw [← ht.portRefusal, ← memRead_error_iff]
    cases memRead (pageNext a) p.2 <;> simp

end Sys2Proof.Machine
end

