-- ==== Sys2Proof/Laws/Step.lean ====
section
/-! SUPPORT. What a step can do: the two kinds of cycle, what a boundary starts, and what every step keeps. -/

namespace Sys2Proof.Machine

/-- The state in which a CPU cycle decides: the dots are done and the cycle is counted. -/
def counted (s : State) : State := { threeDots s with cyclesTotal := (threeDots s).cyclesTotal + 1 }

/-- The dots and the count leave the CPU alone. -/
theorem counted_cpu (s : State) :
    (counted s).pc = s.pc ∧ (counted s).p = s.p ∧ (counted s).sp = s.sp ∧ (counted s).irqLine = s.irqLine ∧
    (counted s).halted = s.halted ∧ (counted s).fault = s.fault ∧ (counted s).cyclesRemaining = s.cyclesRemaining ∧
    (counted s).dmaStall = s.dmaStall ∧ (counted s).nmiPending = (threeDots s).nmiPending := by
  obtain ⟨vb, s0, so, l, d, f, fc, nmi, n, h⟩ := (threeDots_dotted s).touched
  rw [counted, h]
  exact ⟨rfl, rfl, rfl, rfl, rfl, rfl, rfl, rfl, rfl⟩

/-- A step at an instruction boundary (70_reset_and_hazards.md R410). -/
theorem step_boundary {s : State} (h : s.halted = false) (hc : s.cyclesRemaining = 0) :
    step s = match boundary (counted s) with
      | .next u => .next (afterBoundary u)
      | .fault r => .fault r
      | .refused r => .refused r := by
  rw [step, driverCycle, if_neg (by simp [h]), cpuCycle, if_pos (show (threeDots s).cyclesRemaining = 0 from hc)]
  rfl

/-- A step inside an instruction. -/
theorem step_inside {s : State} (h : s.halted = false) (hc : s.cyclesRemaining ≠ 0) : step s = .next (endCycle (counted s)) := by
  rw [step, driverCycle, if_neg (by simp [h]), cpuCycle, if_neg (show ¬(threeDots s).cyclesRemaining = 0 from hc)]
  rfl

/-- What a boundary starts (60_exceptions.md R311 to R313). -/
theorem boundary_cases {s u : State} (h : boundary s = .next u) :
    (s.nmiPending = true ∧ u = enterInterrupt s.pc false Config.nmiVector { s with nmiPending := false }) ∨
    (s.nmiPending = false ∧ s.irqLine = true ∧ s.p.i = false ∧ u = enterInterrupt s.pc false Config.irqVector s) ∨
    (s.nmiPending = false ∧ (s.irqLine = false ∨ s.p.i = true) ∧ ∃ i t, fetch s = .ok (i, t) ∧ exec i t = .next u) := by
  unfold boundary at h
  split at h
  · next hn => cases h; exact .inl ⟨hn, rfl⟩
  · next hn =>
    split at h
    · next hi =>
      simp only [Bool.and_eq_true, Bool.not_eq_true'] at hi
      cases h
      exact .inr (.inl ⟨by simpa using hn, hi.1, hi.2, rfl⟩)
    · next hi =>
      split at h
      · cases h
      · next i t hf =>
        refine .inr (.inr ⟨by simpa using hn, ?_, i, t, hf, h⟩)
        simp only [Bool.and_eq_true, Bool.not_eq_true', not_and, Bool.not_eq_false] at hi
        cases hl : s.irqLine with
        | false => exact .inl rfl
        | true => exact .inr (hi hl)

/-- Where no interrupt is taken a boundary runs the fetched instruction. -/
theorem boundary_fetch {s t : State} {i : Instr} (hn : s.nmiPending = false) (hi : s.irqLine = false ∨ s.p.i = true)
    (hf : fetch s = .ok (i, t)) : boundary s = exec i t := by
  rw [boundary, if_neg (by simp [hn]), if_neg (by rcases hi with hi | hi <;> simp [hi]), hf]

/-- A boundary keeps the memories, the PPU's timing and its sprite flags, and only ever clears VBlank. -/
theorem boundary_keeps {s u : State} (h : boundary s = .next u) :
    (s.memoriesOk → u.memoriesOk) ∧ u.ppu.scanline = s.ppu.scanline ∧ u.ppu.dot = s.ppu.dot ∧ u.ppu.frame = s.ppu.frame ∧
      u.ppu.sprite0Hit = s.ppu.sprite0Hit ∧ u.ppu.spriteOverflow = s.ppu.spriteOverflow ∧
      (u.ppu.vblank = true → s.ppu.vblank = true) := by
  have key : ∀ {a b : State}, ExecFrom a b → (a.memoriesOk → b.memoriesOk) ∧ b.ppu.scanline = a.ppu.scanline ∧
      b.ppu.dot = a.ppu.dot ∧ b.ppu.frame = a.ppu.frame ∧ b.ppu.sprite0Hit = a.ppu.sprite0Hit ∧
      b.ppu.spriteOverflow = a.ppu.spriteOverflow ∧ (b.ppu.vblank = true → a.ppu.vblank = true) := by
    intro a b hab
    refine ⟨hab.memoriesOk, ?_⟩
    obtain ⟨w, hw, -, hc⟩ := hab
    obtain ⟨ram, q, k, chr, stall, n, rfl, hv⟩ := hw.touched
    rw [CpuFrom] at hc
    rw [hc]
    exact ⟨rfl, rfl, rfl, rfl, rfl, hv⟩
  rcases boundary_cases h with ⟨-, rfl⟩ | ⟨-, -, -, rfl⟩ | ⟨-, -, i, t, hf, he⟩
  · have := key (enterInterrupt_exec s.pc false Config.nmiVector { s with nmiPending := false })
    exact this
  · exact key (enterInterrupt_exec s.pc false Config.irqVector s)
  · have := key (exec_from he)
    obtain ⟨vb, w, v, rb, h0, h1, n, rfl, hv⟩ := (fetch_readFrom hf).touched
    exact ⟨this.1, this.2.1, this.2.2.1, this.2.2.2.1, this.2.2.2.2.1, this.2.2.2.2.2.1, fun h => hv (this.2.2.2.2.2.2 h)⟩

end Sys2Proof.Machine
end

