-- ==== Sys2Proof/Tests/Slice0.lean ====
section
/-! SUPPORT. The model's own tests: the refused ill-formed term, decoding words written out from the spec's encoding table, the
vectors of 95_test_vectors.md, and for every statement with hypotheses a state and operands that meet them. -/

namespace Sys2Proof.Tests

open Sys2Proof.Machine Sys2Proof.Claims

set_option Elab.async false

/-- `illegal` with the opcode byte of NOP is ill-formed (30_encoding.md R106). -/
theorem test_illFormed_illegal : (Instr.illegal 0xEA).wellFormed = false := by decide

/-- Whether every word decodes to its instruction with nothing left, and the instruction encodes to the word. -/
def decodesTo (l : List (List Byte × Instr)) : Bool :=
  l.all fun c =>
    match decode c.1 with
    | .ok (i, rest) => i == c.2 && rest.isEmpty && encode c.2 == c.1
    | .error _ => false

/-- Words of 30_encoding.md R104 and R105: LDA, LDX, LDY. -/
theorem test_decode_loads : decodesTo
    [([0xA9, 0x9C], .ldaImm 0x9C), ([0xA5, 0x9C], .ldaZp 0x9C), ([0xB5, 0x9C], .ldaZpx 0x9C),
      ([0xAD, 0x34, 0x92], .ldaAbs 0x9234), ([0xBD, 0x34, 0x92], .ldaAbx 0x9234), ([0xB9, 0x34, 0x92], .ldaAby 0x9234),
      ([0xA1, 0x9C], .ldaIzx 0x9C), ([0xB1, 0x9C], .ldaIzy 0x9C), ([0xA2, 0x9C], .ldxImm 0x9C),
      ([0xA6, 0x9C], .ldxZp 0x9C), ([0xB6, 0x9C], .ldxZpy 0x9C), ([0xAE, 0x34, 0x92], .ldxAbs 0x9234),
      ([0xBE, 0x34, 0x92], .ldxAby 0x9234), ([0xA0, 0x9C], .ldyImm 0x9C), ([0xA4, 0x9C], .ldyZp 0x9C),
      ([0xB4, 0x9C], .ldyZpx 0x9C), ([0xAC, 0x34, 0x92], .ldyAbs 0x9234), ([0xBC, 0x34, 0x92], .ldyAbx 0x9234)] = true := by decide +kernel

/-- Words of 30_encoding.md R104 and R105: STA, STX, STY. -/
theorem test_decode_stores : decodesTo
    [([0x85, 0x9C], .staZp 0x9C), ([0x95, 0x9C], .staZpx 0x9C), ([0x8D, 0x34, 0x92], .staAbs 0x9234),
      ([0x9D, 0x34, 0x92], .staAbx 0x9234), ([0x99, 0x34, 0x92], .staAby 0x9234), ([0x81, 0x9C], .staIzx 0x9C),
      ([0x91, 0x9C], .staIzy 0x9C), ([0x86, 0x9C], .stxZp 0x9C), ([0x96, 0x9C], .stxZpy 0x9C),
      ([0x8E, 0x34, 0x92], .stxAbs 0x9234), ([0x84, 0x9C], .styZp 0x9C), ([0x94, 0x9C], .styZpx 0x9C),
      ([0x8C, 0x34, 0x92], .styAbs 0x9234)] = true := by decide +kernel

/-- Words of 30_encoding.md R104 and R105: TAX, TAY, TXA, TYA, TSX, TXS. -/
theorem test_decode_transfers : decodesTo
    [([0xAA], .tax), ([0xA8], .tay), ([0x8A], .txa),
      ([0x98], .tya), ([0xBA], .tsx), ([0x9A], .txs)] = true := by decide +kernel

/-- Words of 30_encoding.md R104 and R105: ADC, SBC. -/
theorem test_decode_addSub : decodesTo
    [([0x69, 0x9C], .adcImm 0x9C), ([0x65, 0x9C], .adcZp 0x9C), ([0x75, 0x9C], .adcZpx 0x9C),
      ([0x6D, 0x34, 0x92], .adcAbs 0x9234), ([0x7D, 0x34, 0x92], .adcAbx 0x9234), ([0x79, 0x34, 0x92], .adcAby 0x9234),
      ([0x61, 0x9C], .adcIzx 0x9C), ([0x71, 0x9C], .adcIzy 0x9C), ([0xE9, 0x9C], .sbcImm 0x9C),
      ([0xE5, 0x9C], .sbcZp 0x9C), ([0xF5, 0x9C], .sbcZpx 0x9C), ([0xED, 0x34, 0x92], .sbcAbs 0x9234),
      ([0xFD, 0x34, 0x92], .sbcAbx 0x9234), ([0xF9, 0x34, 0x92], .sbcAby 0x9234), ([0xE1, 0x9C], .sbcIzx 0x9C),
      ([0xF1, 0x9C], .sbcIzy 0x9C)] = true := by decide +kernel

/-- Words of 30_encoding.md R104 and R105: AND, ORA, EOR. -/
theorem test_decode_logic : decodesTo
    [([0x29, 0x9C], .andImm 0x9C), ([0x25, 0x9C], .andZp 0x9C), ([0x35, 0x9C], .andZpx 0x9C),
      ([0x2D, 0x34, 0x92], .andAbs 0x9234), ([0x3D, 0x34, 0x92], .andAbx 0x9234), ([0x39, 0x34, 0x92], .andAby 0x9234),
      ([0x21, 0x9C], .andIzx 0x9C), ([0x31, 0x9C], .andIzy 0x9C), ([0x09, 0x9C], .oraImm 0x9C),
      ([0x05, 0x9C], .oraZp 0x9C), ([0x15, 0x9C], .oraZpx 0x9C), ([0x0D, 0x34, 0x92], .oraAbs 0x9234),
      ([0x1D, 0x34, 0x92], .oraAbx 0x9234), ([0x19, 0x34, 0x92], .oraAby 0x9234), ([0x01, 0x9C], .oraIzx 0x9C),
      ([0x11, 0x9C], .oraIzy 0x9C), ([0x49, 0x9C], .eorImm 0x9C), ([0x45, 0x9C], .eorZp 0x9C),
      ([0x55, 0x9C], .eorZpx 0x9C), ([0x4D, 0x34, 0x92], .eorAbs 0x9234), ([0x5D, 0x34, 0x92], .eorAbx 0x9234),
      ([0x59, 0x34, 0x92], .eorAby 0x9234), ([0x41, 0x9C], .eorIzx 0x9C), ([0x51, 0x9C], .eorIzy 0x9C)] = true := by decide +kernel

/-- Words of 30_encoding.md R104 and R105: CMP, CPX, CPY, BIT. -/
theorem test_decode_compare : decodesTo
    [([0xC9, 0x9C], .cmpImm 0x9C), ([0xC5, 0x9C], .cmpZp 0x9C), ([0xD5, 0x9C], .cmpZpx 0x9C),
      ([0xCD, 0x34, 0x92], .cmpAbs 0x9234), ([0xDD, 0x34, 0x92], .cmpAbx 0x9234), ([0xD9, 0x34, 0x92], .cmpAby 0x9234),
      ([0xC1, 0x9C], .cmpIzx 0x9C), ([0xD1, 0x9C], .cmpIzy 0x9C), ([0xE0, 0x9C], .cpxImm 0x9C),
      ([0xE4, 0x9C], .cpxZp 0x9C), ([0xEC, 0x34, 0x92], .cpxAbs 0x9234), ([0xC0, 0x9C], .cpyImm 0x9C),
      ([0xC4, 0x9C], .cpyZp 0x9C), ([0xCC, 0x34, 0x92], .cpyAbs 0x9234), ([0x24, 0x9C], .bitZp 0x9C),
      ([0x2C, 0x34, 0x92], .bitAbs 0x9234)] = true := by decide +kernel

/-- Words of 30_encoding.md R104 and R105: INC, DEC, INX, INY, DEX, DEY. -/
theorem test_decode_incDec : decodesTo
    [([0xE6, 0x9C], .incZp 0x9C), ([0xF6, 0x9C], .incZpx 0x9C), ([0xEE, 0x34, 0x92], .incAbs 0x9234),
      ([0xFE, 0x34, 0x92], .incAbx 0x9234), ([0xC6, 0x9C], .decZp 0x9C), ([0xD6, 0x9C], .decZpx 0x9C),
      ([0xCE, 0x34, 0x92], .decAbs 0x9234), ([0xDE, 0x34, 0x92], .decAbx 0x9234), ([0xE8], .inx),
      ([0xC8], .iny), ([0xCA], .dex), ([0x88], .dey)] = true := by decide +kernel

/-- Words of 30_encoding.md R104 and R105: ASL, ROL. -/
theorem test_decode_shiftLeft : decodesTo
    [([0x0A], .aslAcc), ([0x06, 0x9C], .aslZp 0x9C), ([0x16, 0x9C], .aslZpx 0x9C),
      ([0x0E, 0x34, 0x92], .aslAbs 0x9234), ([0x1E, 0x34, 0x92], .aslAbx 0x9234), ([0x2A], .rolAcc),
      ([0x26, 0x9C], .rolZp 0x9C), ([0x36, 0x9C], .rolZpx 0x9C), ([0x2E, 0x34, 0x92], .rolAbs 0x9234),
      ([0x3E, 0x34, 0x92], .rolAbx 0x9234)] = true := by decide +kernel

/-- Words of 30_encoding.md R104 and R105: LSR, ROR. -/
theorem test_decode_shiftRight : decodesTo
    [([0x4A], .lsrAcc), ([0x46, 0x9C], .lsrZp 0x9C), ([0x56, 0x9C], .lsrZpx 0x9C),
      ([0x4E, 0x34, 0x92], .lsrAbs 0x9234), ([0x5E, 0x34, 0x92], .lsrAbx 0x9234), ([0x6A], .rorAcc),
      ([0x66, 0x9C], .rorZp 0x9C), ([0x76, 0x9C], .rorZpx 0x9C), ([0x6E, 0x34, 0x92], .rorAbs 0x9234),
      ([0x7E, 0x34, 0x92], .rorAbx 0x9234)] = true := by decide +kernel

/-- Words of 30_encoding.md R104 and R105: PHA, PHP, PLA, PLP. -/
theorem test_decode_stack : decodesTo
    [([0x48], .pha), ([0x08], .php), ([0x68], .pla),
      ([0x28], .plp)] = true := by decide +kernel

/-- Words of 30_encoding.md R104 and R105: JMP, JSR, RTS, BRK, RTI. -/
theorem test_decode_control : decodesTo
    [([0x4C, 0x34, 0x92], .jmpAbs 0x9234), ([0x6C, 0x34, 0x92], .jmpInd 0x9234), ([0x20, 0x34, 0x92], .jsrAbs 0x9234),
      ([0x60], .rts), ([0x00, 0x00], .brk), ([0x40], .rti)] = true := by decide +kernel

/-- Words of 30_encoding.md R104 and R105: BCC, BCS, BEQ, BMI, BNE, BPL, BVC, BVS. -/
theorem test_decode_branch : decodesTo
    [([0x90, 0x9C], .bcc 0x9C), ([0xB0, 0x9C], .bcs 0x9C), ([0xF0, 0x9C], .beq 0x9C),
      ([0x30, 0x9C], .bmi 0x9C), ([0xD0, 0x9C], .bne 0x9C), ([0x10, 0x9C], .bpl 0x9C),
      ([0x50, 0x9C], .bvc 0x9C), ([0x70, 0x9C], .bvs 0x9C)] = true := by decide +kernel

/-- Words of 30_encoding.md R104 and R105: CLC, CLD, CLI, CLV, SEC, SED, SEI, NOP. -/
theorem test_decode_flags : decodesTo
    [([0x18], .clc), ([0xD8], .cld), ([0x58], .cli),
      ([0xB8], .clv), ([0x38], .sec), ([0xF8], .sed),
      ([0x78], .sei), ([0xEA], .nop)] = true := by decide +kernel

/-- Undefined opcode bytes, and bytes that are too few. -/
theorem test_decode_undefined :
    decode [0x02, 0x34] = .ok (.illegal 0x02, [0x34]) ∧ decode [0xEB] = .ok (.illegal 0xEB, []) ∧ decode [] = .error .noOpcode ∧
      decode [0xAD, 0x34] = .error (.truncated 0xAD) := ⟨rfl, rfl, rfl, rfl⟩

/-- BRK skips whatever its padding byte is (40_addressing.md R145). -/
theorem test_decode_brk_padding : decode [0x00, 0xEA, 0x18] = .ok (.brk, [0x18]) := rfl

/-- A table word: byte 0 is the opcode, and operand bytes above `nbits` are 0. -/
theorem test_decodeTableWord :
    decodeTableWord 24 0x02008D = some (.staAbs 0x0200) ∧ decodeTableWord 8 0xFF4C = some (.jmpAbs 0x0000) ∧
      decodeTableWord 8 0x12 = some (.illegal 0x12) := by decide +kernel

/-- Seven flags, written as the vectors do: N V B D I Z C. -/
def st (n v b d i z c : Nat) : Status := ⟨n == 1, v == 1, b == 1, d == 1, i == 1, z == 1, c == 1⟩

/-- The default start state of 95_test_vectors.md section 0 with bytes placed in RAM and program ROM. -/
def start (pc : Word) (bytes : List (Word × Byte)) (a x y sp : Byte) (p : Status) : State :=
  bytes.foldl (fun s c => placeByte c.1 c.2 s) { State.reset with pc := pc, a := a, x := x, y := y, sp := sp, p := p }

/-- What a vector shows: the registers, the cost and some RAM bytes. -/
structure Shown where
  a : Byte
  x : Byte
  y : Byte
  sp : Byte
  pc : Word
  p : Status
  cycles : Nat
  bytes : List Byte
  deriving DecidableEq, Repr

/-- What shows after one boundary. -/
def outcomeOf (s : State) (addrs : List Nat) : Option Shown :=
  match boundary s with
  | .next t => if t.halted then none else some ⟨t.a, t.x, t.y, t.sp, t.pc, t.p, t.cyclesRemaining, addrs.map t.ram.get⟩
  | .fault _ => none
  | .refused _ => none

/-- The fault record after one boundary. -/
def haltedAs (s : State) : Option (Word × Byte) :=
  match boundary s with
  | .next t => if t.halted then t.fault else none
  | .fault _ => none
  | .refused _ => none

/-- T2: zpx wraps: LDA $F0,X with X=$20 reads $0010. -/
theorem test_T2 : outcomeOf (start 0x8000 [(0x8000, 0xB5), (0x8001, 0xF0), (0x0010, 0x66)] 0x00 0x20 0x00 0xFD (st 0 0 0 0 0 0 0)) [] =
    some ⟨0x66, 0x20, 0x00, 0xFD, 0x8002, st 0 0 0 0 0 0 0, 4, []⟩ := by decide +kernel

/-- T3: zpy wraps: LDX $FF,Y with Y=$02 reads $0001. -/
theorem test_T3 : outcomeOf (start 0x8000 [(0x8000, 0xB6), (0x8001, 0xFF), (0x0001, 0x80)] 0x00 0x00 0x02 0xFD (st 0 0 0 0 0 0 0)) [] =
    some ⟨0x00, 0x80, 0x02, 0xFD, 0x8002, st 1 0 0 0 0 0 0, 4, []⟩ := by decide +kernel

/-- T6: abx cross: LDA $02FF,X. -/
theorem test_T6 : outcomeOf (start 0x8000 [(0x8000, 0xBD), (0x8001, 0xFF), (0x8002, 0x02), (0x0300, 0x22)] 0x00 0x01 0x00 0xFD (st 0 0 0 0 0 0 0)) [] =
    some ⟨0x22, 0x01, 0x00, 0xFD, 0x8003, st 0 0 0 0 0 0 0, 5, []⟩ := by decide +kernel

/-- T7: aby cross, wraps $FFFF+1 to $0000: LDA $FFFF,Y. -/
theorem test_T7 : outcomeOf (start 0x8000 [(0x8000, 0xB9), (0x8001, 0xFF), (0x8002, 0xFF), (0x0000, 0x33)] 0x00 0x00 0x01 0xFD (st 0 0 0 0 0 0 0)) [] =
    some ⟨0x33, 0x00, 0x01, 0xFD, 0x8003, st 0 0 0 0 0 0 0, 5, []⟩ := by decide +kernel

/-- T8: izx pointer wraps in page 0: LDA ($FF,X) X=0 -> ptr lo $00FF, hi $0000. -/
theorem test_T8 : outcomeOf (start 0x8000 [(0x8000, 0xA1), (0x8001, 0xFF), (0x00FF, 0x34), (0x0000, 0x02), (0x0234, 0x44)] 0x00 0x00 0x00 0xFD (st 0 0 0 0 0 0 0)) [] =
    some ⟨0x44, 0x00, 0x00, 0xFD, 0x8002, st 0 0 0 0 0 0 0, 6, []⟩ := by decide +kernel

/-- T11: izy cross: LDA ($10),Y. -/
theorem test_T11 : outcomeOf (start 0x8000 [(0x8000, 0xB1), (0x8001, 0x10), (0x0010, 0xF8), (0x0011, 0x02), (0x0308, 0x01)] 0x00 0x00 0x10 0xFD (st 0 0 0 0 0 0 0)) [] =
    some ⟨0x01, 0x00, 0x10, 0xFD, 0x8002, st 0 0 0 0 0 0 0, 6, []⟩ := by decide +kernel

/-- T12: izy pointer at $FF wraps: LDA ($FF),Y. -/
theorem test_T12 : outcomeOf (start 0x8000 [(0x8000, 0xB1), (0x8001, 0xFF), (0x00FF, 0x00), (0x0000, 0x04), (0x0400, 0x5A)] 0x00 0x00 0x00 0xFD (st 0 0 0 0 0 0 0)) [] =
    some ⟨0x5A, 0x00, 0x00, 0xFD, 0x8002, st 0 0 0 0 0 0 0, 5, []⟩ := by decide +kernel

/-- T13: RAM mirror: LDA $0800 reads $0000. -/
theorem test_T13 : outcomeOf (start 0x8000 [(0x8000, 0xAD), (0x8001, 0x00), (0x8002, 0x08), (0x0000, 0x77)] 0x00 0x00 0x00 0xFD (st 0 0 0 0 0 0 0)) [] =
    some ⟨0x77, 0x00, 0x00, 0xFD, 0x8003, st 0 0 0 0 0 0 0, 4, []⟩ := by decide +kernel

/-- T14: RAM mirror: STA $1FFF writes $07FF. -/
theorem test_T14 : outcomeOf (start 0x8000 [(0x8000, 0x8D), (0x8001, 0xFF), (0x8002, 0x1F)] 0xAB 0x00 0x00 0xFD (st 0 0 0 0 0 0 0)) [0x07FF] =
    some ⟨0xAB, 0x00, 0x00, 0xFD, 0x8003, st 0 0 0 0 0 0 0, 4, [0xAB]⟩ := by decide +kernel

/-- T15: store abx never pays penalty: STA $02FF,X. -/
theorem test_T15 : outcomeOf (start 0x8000 [(0x8000, 0x9D), (0x8001, 0xFF), (0x8002, 0x02)] 0x05 0x01 0x00 0xFD (st 0 0 0 0 0 0 0)) [0x0300] =
    some ⟨0x05, 0x01, 0x00, 0xFD, 0x8003, st 0 0 0 0 0 0 0, 5, [0x05]⟩ := by decide +kernel

/-- T16: RMW abx never pays penalty: INC $02FF,X. -/
theorem test_T16 : outcomeOf (start 0x8000 [(0x8000, 0xFE), (0x8001, 0xFF), (0x8002, 0x02), (0x0300, 0x7F)] 0x00 0x01 0x00 0xFD (st 0 0 0 0 0 0 0)) [0x0300] =
    some ⟨0x00, 0x01, 0x00, 0xFD, 0x8003, st 1 0 0 0 0 0 0, 7, [0x80]⟩ := by decide +kernel

/-- T17: LDA #$00 sets Z. -/
theorem test_T17 : outcomeOf (start 0x8000 [(0x8000, 0xA9), (0x8001, 0x00)] 0x12 0x00 0x00 0xFD (st 1 0 0 0 0 0 0)) [] =
    some ⟨0x00, 0x00, 0x00, 0xFD, 0x8002, st 0 0 0 0 0 1 0, 2, []⟩ := by decide +kernel

/-- T19: LDX #$00. -/
theorem test_T19 : outcomeOf (start 0x8000 [(0x8000, 0xA2), (0x8001, 0x00)] 0x00 0x05 0x00 0xFD (st 0 0 0 0 0 0 0)) [] =
    some ⟨0x00, 0x00, 0x00, 0xFD, 0x8002, st 0 0 0 0 0 1 0, 2, []⟩ := by decide +kernel

/-- T20: LDY #$FF. -/
theorem test_T20 : outcomeOf (start 0x8000 [(0x8000, 0xA0), (0x8001, 0xFF)] 0x00 0x00 0x00 0xFD (st 0 0 0 0 0 0 0)) [] =
    some ⟨0x00, 0x00, 0xFF, 0xFD, 0x8002, st 1 0 0 0 0 0 0, 2, []⟩ := by decide +kernel

/-- T21: STX zp,Y: STX $FF,Y Y=$01 writes $0000. -/
theorem test_T21 : outcomeOf (start 0x8000 [(0x8000, 0x96), (0x8001, 0xFF)] 0x00 0x42 0x01 0xFD (st 0 0 0 0 0 0 0)) [0x0000] =
    some ⟨0x00, 0x42, 0x01, 0xFD, 0x8002, st 0 0 0 0 0 0 0, 4, [0x42]⟩ := by decide +kernel

/-- T22: STY zp,X. -/
theorem test_T22 : outcomeOf (start 0x8000 [(0x8000, 0x94), (0x8001, 0x10)] 0x00 0x01 0x99 0xFD (st 0 0 0 0 0 1 0)) [0x0011] =
    some ⟨0x00, 0x01, 0x99, 0xFD, 0x8002, st 0 0 0 0 0 1 0, 4, [0x99]⟩ := by decide +kernel

/-- T23: TAX copies and sets N. -/
theorem test_T23 : outcomeOf (start 0x8000 [(0x8000, 0xAA)] 0x80 0x00 0x00 0xFD (st 0 0 0 0 0 0 0)) [] =
    some ⟨0x80, 0x80, 0x00, 0xFD, 0x8001, st 1 0 0 0 0 0 0, 2, []⟩ := by decide +kernel

/-- T24: TAY zero. -/
theorem test_T24 : outcomeOf (start 0x8000 [(0x8000, 0xA8)] 0x00 0x00 0x07 0xFD (st 0 0 0 0 0 0 0)) [] =
    some ⟨0x00, 0x00, 0x00, 0xFD, 0x8001, st 0 0 0 0 0 1 0, 2, []⟩ := by decide +kernel

/-- T25: TXA. -/
theorem test_T25 : outcomeOf (start 0x8000 [(0x8000, 0x8A)] 0xFF 0x01 0x00 0xFD (st 1 0 0 0 0 1 0)) [] =
    some ⟨0x01, 0x01, 0x00, 0xFD, 0x8001, st 0 0 0 0 0 0 0, 2, []⟩ := by decide +kernel

/-- T26: TYA. -/
theorem test_T26 : outcomeOf (start 0x8000 [(0x8000, 0x98)] 0x10 0x00 0x00 0xFD (st 0 0 0 0 0 0 0)) [] =
    some ⟨0x00, 0x00, 0x00, 0xFD, 0x8001, st 0 0 0 0 0 1 0, 2, []⟩ := by decide +kernel

/-- T27: TSX sets flags. -/
theorem test_T27 : outcomeOf (start 0x8000 [(0x8000, 0xBA)] 0x00 0x00 0x00 0x00 (st 0 0 0 0 0 0 0)) [] =
    some ⟨0x00, 0x00, 0x00, 0x00, 0x8001, st 0 0 0 0 0 1 0, 2, []⟩ := by decide +kernel

/-- T28: TXS sets no flags. -/
theorem test_T28 : outcomeOf (start 0x8000 [(0x8000, 0x9A)] 0x00 0x00 0x00 0xFD (st 1 0 0 0 0 0 0)) [] =
    some ⟨0x00, 0x00, 0x00, 0x00, 0x8001, st 1 0 0 0 0 0 0, 2, []⟩ := by decide +kernel

/-- T31: ADC $7F+$01 signed overflow. -/
theorem test_T31 : outcomeOf (start 0x8000 [(0x8000, 0x69), (0x8001, 0x01)] 0x7F 0x00 0x00 0xFD (st 0 0 0 0 0 0 0)) [] =
    some ⟨0x80, 0x00, 0x00, 0xFD, 0x8002, st 1 1 0 0 0 0 0, 2, []⟩ := by decide +kernel

/-- T33: ADC $80+$80 carry, overflow, zero. -/
theorem test_T33 : outcomeOf (start 0x8000 [(0x8000, 0x69), (0x8001, 0x80)] 0x80 0x00 0x00 0xFD (st 0 0 0 0 0 0 0)) [] =
    some ⟨0x00, 0x00, 0x00, 0xFD, 0x8002, st 0 1 0 0 0 1 1, 2, []⟩ := by decide +kernel

/-- T36: ADC binary even when D=1: $09+$01. -/
theorem test_T36 : outcomeOf (start 0x8000 [(0x8000, 0x69), (0x8001, 0x01)] 0x09 0x00 0x00 0xFD (st 0 0 0 1 0 0 0)) [] =
    some ⟨0x0A, 0x00, 0x00, 0xFD, 0x8002, st 0 0 0 1 0 0 0, 2, []⟩ := by decide +kernel

/-- T39: SBC $03-$05 borrow out. -/
theorem test_T39 : outcomeOf (start 0x8000 [(0x8000, 0xE9), (0x8001, 0x05)] 0x03 0x00 0x00 0xFD (st 0 0 0 0 0 0 1)) [] =
    some ⟨0xFE, 0x00, 0x00, 0xFD, 0x8002, st 1 0 0 0 0 0 0, 2, []⟩ := by decide +kernel

/-- T41: SBC $7F-$FF overflow. -/
theorem test_T41 : outcomeOf (start 0x8000 [(0x8000, 0xE9), (0x8001, 0xFF)] 0x7F 0x00 0x00 0xFD (st 0 0 0 0 0 0 1)) [] =
    some ⟨0x80, 0x00, 0x00, 0xFD, 0x8002, st 1 1 0 0 0 0 0, 2, []⟩ := by decide +kernel

/-- T43: SBC binary with D=1: $10-$01. -/
theorem test_T43 : outcomeOf (start 0x8000 [(0x8000, 0xE9), (0x8001, 0x01)] 0x10 0x00 0x00 0xFD (st 0 0 0 1 0 0 1)) [] =
    some ⟨0x0F, 0x00, 0x00, 0xFD, 0x8002, st 0 0 0 1 0 0 1, 2, []⟩ := by decide +kernel

/-- T44: AND. -/
theorem test_T44 : outcomeOf (start 0x8000 [(0x8000, 0x29), (0x8001, 0x0F)] 0xF0 0x00 0x00 0xFD (st 0 0 0 0 0 0 0)) [] =
    some ⟨0x00, 0x00, 0x00, 0xFD, 0x8002, st 0 0 0 0 0 1 0, 2, []⟩ := by decide +kernel

/-- T45: ORA. -/
theorem test_T45 : outcomeOf (start 0x8000 [(0x8000, 0x09), (0x8001, 0x80)] 0x01 0x00 0x00 0xFD (st 0 0 0 0 0 0 0)) [] =
    some ⟨0x81, 0x00, 0x00, 0xFD, 0x8002, st 1 0 0 0 0 0 0, 2, []⟩ := by decide +kernel

/-- T46: EOR to zero. -/
theorem test_T46 : outcomeOf (start 0x8000 [(0x8000, 0x49), (0x8001, 0xFF)] 0xFF 0x00 0x00 0xFD (st 0 0 0 0 0 0 0)) [] =
    some ⟨0x00, 0x00, 0x00, 0xFD, 0x8002, st 0 0 0 0 0 1 0, 2, []⟩ := by decide +kernel

/-- T47: CMP equal. -/
theorem test_T47 : outcomeOf (start 0x8000 [(0x8000, 0xC9), (0x8001, 0x40)] 0x40 0x00 0x00 0xFD (st 0 0 0 0 0 0 0)) [] =
    some ⟨0x40, 0x00, 0x00, 0xFD, 0x8002, st 0 0 0 0 0 1 1, 2, []⟩ := by decide +kernel

/-- T50: CMP $00 vs $80: N from difference. -/
theorem test_T50 : outcomeOf (start 0x8000 [(0x8000, 0xC9), (0x8001, 0x80)] 0x00 0x00 0x00 0xFD (st 0 0 0 0 0 0 0)) [] =
    some ⟨0x00, 0x00, 0x00, 0xFD, 0x8002, st 1 0 0 0 0 0 0, 2, []⟩ := by decide +kernel

/-- T51: CPX zp. -/
theorem test_T51 : outcomeOf (start 0x8000 [(0x8000, 0xE4), (0x8001, 0x10), (0x0010, 0x10)] 0x00 0x10 0x00 0xFD (st 0 0 0 0 0 0 0)) [] =
    some ⟨0x00, 0x10, 0x00, 0xFD, 0x8002, st 0 0 0 0 0 1 1, 3, []⟩ := by decide +kernel

/-- T52: CPY imm less. -/
theorem test_T52 : outcomeOf (start 0x8000 [(0x8000, 0xC0), (0x8001, 0x01)] 0x00 0x00 0x00 0xFD (st 0 0 0 0 0 0 0)) [] =
    some ⟨0x00, 0x00, 0x00, 0xFD, 0x8002, st 1 0 0 0 0 0 0, 2, []⟩ := by decide +kernel

/-- T53: BIT copies bits 7 and 6, Z from A&M. -/
theorem test_T53 : outcomeOf (start 0x8000 [(0x8000, 0x24), (0x8001, 0x10), (0x0010, 0xC0)] 0x01 0x00 0x00 0xFD (st 0 0 0 0 0 0 0)) [] =
    some ⟨0x01, 0x00, 0x00, 0xFD, 0x8002, st 1 1 0 0 0 1 0, 3, []⟩ := by decide +kernel

/-- T54: BIT nonzero AND. -/
theorem test_T54 : outcomeOf (start 0x8000 [(0x8000, 0x2C), (0x8001, 0x00), (0x8002, 0x02), (0x0200, 0x01)] 0xFF 0x00 0x00 0xFD (st 1 1 0 0 0 0 0)) [] =
    some ⟨0xFF, 0x00, 0x00, 0xFD, 0x8003, st 0 0 0 0 0 0 0, 4, []⟩ := by decide +kernel

/-- T55: INC wraps. -/
theorem test_T55 : outcomeOf (start 0x8000 [(0x8000, 0xE6), (0x8001, 0x10), (0x0010, 0xFF)] 0x00 0x00 0x00 0xFD (st 0 0 0 0 0 0 0)) [0x0010] =
    some ⟨0x00, 0x00, 0x00, 0xFD, 0x8002, st 0 0 0 0 0 1 0, 5, [0x00]⟩ := by decide +kernel

/-- T56: DEC to $FF. -/
theorem test_T56 : outcomeOf (start 0x8000 [(0x8000, 0xC6), (0x8001, 0x10), (0x0010, 0x00)] 0x00 0x00 0x00 0xFD (st 0 0 0 0 0 0 0)) [0x0010] =
    some ⟨0x00, 0x00, 0x00, 0xFD, 0x8002, st 1 0 0 0 0 0 0, 5, [0xFF]⟩ := by decide +kernel

/-- T57: DEC zpx. -/
theorem test_T57 : outcomeOf (start 0x8000 [(0x8000, 0xD6), (0x8001, 0x0F), (0x0010, 0x01)] 0x00 0x01 0x00 0xFD (st 0 0 0 0 0 0 0)) [0x0010] =
    some ⟨0x00, 0x01, 0x00, 0xFD, 0x8002, st 0 0 0 0 0 1 0, 6, [0x00]⟩ := by decide +kernel

/-- T58: INX wraps. -/
theorem test_T58 : outcomeOf (start 0x8000 [(0x8000, 0xE8)] 0x00 0xFF 0x00 0xFD (st 0 0 0 0 0 0 0)) [] =
    some ⟨0x00, 0x00, 0x00, 0xFD, 0x8001, st 0 0 0 0 0 1 0, 2, []⟩ := by decide +kernel

/-- T59: INY. -/
theorem test_T59 : outcomeOf (start 0x8000 [(0x8000, 0xC8)] 0x00 0x00 0x7F 0xFD (st 0 0 0 0 0 0 0)) [] =
    some ⟨0x00, 0x00, 0x80, 0xFD, 0x8001, st 1 0 0 0 0 0 0, 2, []⟩ := by decide +kernel

/-- T60: DEX. -/
theorem test_T60 : outcomeOf (start 0x8000 [(0x8000, 0xCA)] 0x00 0x01 0x00 0xFD (st 0 0 0 0 0 0 0)) [] =
    some ⟨0x00, 0x00, 0x00, 0xFD, 0x8001, st 0 0 0 0 0 1 0, 2, []⟩ := by decide +kernel

/-- T61: DEY wraps. -/
theorem test_T61 : outcomeOf (start 0x8000 [(0x8000, 0x88)] 0x00 0x00 0x00 0xFD (st 0 0 0 0 0 0 0)) [] =
    some ⟨0x00, 0x00, 0xFF, 0xFD, 0x8001, st 1 0 0 0 0 0 0, 2, []⟩ := by decide +kernel

/-- T62: ASL A. -/
theorem test_T62 : outcomeOf (start 0x8000 [(0x8000, 0x0A)] 0x81 0x00 0x00 0xFD (st 0 0 0 0 0 0 0)) [] =
    some ⟨0x02, 0x00, 0x00, 0xFD, 0x8001, st 0 0 0 0 0 0 1, 2, []⟩ := by decide +kernel

/-- T64: LSR A. -/
theorem test_T64 : outcomeOf (start 0x8000 [(0x8000, 0x4A)] 0x01 0x00 0x00 0xFD (st 0 0 0 0 0 0 0)) [] =
    some ⟨0x00, 0x00, 0x00, 0xFD, 0x8001, st 0 0 0 0 0 1 1, 2, []⟩ := by decide +kernel

/-- T65: ROL A carry in. -/
theorem test_T65 : outcomeOf (start 0x8000 [(0x8000, 0x2A)] 0x80 0x00 0x00 0xFD (st 0 0 0 0 0 0 1)) [] =
    some ⟨0x01, 0x00, 0x00, 0xFD, 0x8001, st 0 0 0 0 0 0 1, 2, []⟩ := by decide +kernel

/-- T66: ROR A carry in. -/
theorem test_T66 : outcomeOf (start 0x8000 [(0x8000, 0x6A)] 0x01 0x00 0x00 0xFD (st 0 0 0 0 0 0 1)) [] =
    some ⟨0x80, 0x00, 0x00, 0xFD, 0x8001, st 1 0 0 0 0 0 1, 2, []⟩ := by decide +kernel

/-- T69: LSR abs. -/
theorem test_T69 : outcomeOf (start 0x8000 [(0x8000, 0x4E), (0x8001, 0x00), (0x8002, 0x02), (0x0200, 0xFF)] 0x00 0x00 0x00 0xFD (st 0 0 0 0 0 0 0)) [0x0200] =
    some ⟨0x00, 0x00, 0x00, 0xFD, 0x8003, st 0 0 0 0 0 0 1, 6, [0x7F]⟩ := by decide +kernel

/-- T70: ROL zpx. -/
theorem test_T70 : outcomeOf (start 0x8000 [(0x8000, 0x36), (0x8001, 0x0F), (0x0010, 0x7F)] 0x00 0x01 0x00 0xFD (st 0 0 0 0 0 0 0)) [0x0010] =
    some ⟨0x00, 0x01, 0x00, 0xFD, 0x8002, st 1 0 0 0 0 0 0, 6, [0xFE]⟩ := by decide +kernel

/-- T71: ROR abx. -/
theorem test_T71 : outcomeOf (start 0x8000 [(0x8000, 0x7E), (0x8001, 0x00), (0x8002, 0x02), (0x0201, 0x00)] 0x00 0x01 0x00 0xFD (st 0 0 0 0 0 0 1)) [0x0201] =
    some ⟨0x00, 0x01, 0x00, 0xFD, 0x8003, st 1 0 0 0 0 0 0, 7, [0x80]⟩ := by decide +kernel

/-- T73: PHA at SP=$00 wraps to $FF. -/
theorem test_T73 : outcomeOf (start 0x8000 [(0x8000, 0x48)] 0x11 0x00 0x00 0x00 (st 0 0 0 0 0 0 0)) [0x0100] =
    some ⟨0x11, 0x00, 0x00, 0xFF, 0x8001, st 0 0 0 0 0 0 0, 3, [0x11]⟩ := by decide +kernel

/-- T74: PHP pushes B=1 and bit5=1. -/
theorem test_T74 : outcomeOf (start 0x8000 [(0x8000, 0x08)] 0x00 0x00 0x00 0xFD (st 1 0 0 0 0 0 1)) [0x01FD] =
    some ⟨0x00, 0x00, 0x00, 0xFC, 0x8001, st 1 0 0 0 0 0 1, 3, [0xB1]⟩ := by decide +kernel

/-- T77: PLA at SP=$FF wraps to $00. -/
theorem test_T77 : outcomeOf (start 0x8000 [(0x8000, 0x68), (0x0100, 0x80)] 0x00 0x00 0x00 0xFF (st 0 0 0 0 0 0 0)) [] =
    some ⟨0x80, 0x00, 0x00, 0x00, 0x8001, st 1 0 0 0 0 0 0, 4, []⟩ := by decide +kernel

/-- T78: PLP loads all flags but bit 5. -/
theorem test_T78 : outcomeOf (start 0x8000 [(0x8000, 0x28), (0x01FD, 0xFF)] 0x00 0x00 0x00 0xFC (st 0 0 0 0 0 0 0)) [] =
    some ⟨0x00, 0x00, 0x00, 0xFD, 0x8001, st 1 1 1 1 1 1 1, 4, []⟩ := by decide +kernel

/-- T80: JMP abs. -/
theorem test_T80 : outcomeOf (start 0x8000 [(0x8000, 0x4C), (0x8001, 0x34), (0x8002, 0x12)] 0x00 0x00 0x00 0xFD (st 0 0 0 0 0 0 0)) [] =
    some ⟨0x00, 0x00, 0x00, 0xFD, 0x1234, st 0 0 0 0 0 0 0, 3, []⟩ := by decide +kernel

/-- T82: JMP ind page bug (source example). -/
theorem test_T82 : outcomeOf (start 0x8000 [(0x8000, 0x6C), (0x8001, 0xFF), (0x8002, 0x02), (0x02FF, 0x00), (0x0200, 0x80), (0x0300, 0x90)] 0x00 0x00 0x00 0xFD (st 0 0 0 0 0 0 0)) [] =
    some ⟨0x00, 0x00, 0x00, 0xFD, 0x8000, st 0 0 0 0 0 0 0, 5, []⟩ := by decide +kernel

/-- T83: JSR pushes pc0+2. -/
theorem test_T83 : outcomeOf (start 0x8000 [(0x8000, 0x20), (0x8001, 0x00), (0x8002, 0x90)] 0x00 0x00 0x00 0xFD (st 0 0 0 0 0 0 0)) [0x01FC, 0x01FD] =
    some ⟨0x00, 0x00, 0x00, 0xFB, 0x9000, st 0 0 0 0 0 0 0, 6, [0x02, 0x80]⟩ := by decide +kernel

/-- T85: RTS wraps $FFFF+1. -/
theorem test_T85 : outcomeOf (start 0x8000 [(0x8000, 0x60), (0x01FC, 0xFF), (0x01FD, 0xFF)] 0x00 0x00 0x00 0xFB (st 0 0 0 0 0 0 0)) [] =
    some ⟨0x00, 0x00, 0x00, 0xFD, 0x0000, st 0 0 0 0 0 0 0, 6, []⟩ := by decide +kernel

/-- T86: BEQ not taken. -/
theorem test_T86 : outcomeOf (start 0x8000 [(0x8000, 0xF0), (0x8001, 0x05)] 0x00 0x00 0x00 0xFD (st 0 0 0 0 0 0 0)) [] =
    some ⟨0x00, 0x00, 0x00, 0xFD, 0x8002, st 0 0 0 0 0 0 0, 2, []⟩ := by decide +kernel

/-- T87: BEQ taken same page. -/
theorem test_T87 : outcomeOf (start 0x8000 [(0x8000, 0xF0), (0x8001, 0x05)] 0x00 0x00 0x00 0xFD (st 0 0 0 0 0 1 0)) [] =
    some ⟨0x00, 0x00, 0x00, 0xFD, 0x8007, st 0 0 0 0 0 1 0, 3, []⟩ := by decide +kernel

/-- T88: BNE taken backward. -/
theorem test_T88 : outcomeOf (start 0x8010 [(0x8010, 0xD0), (0x8011, 0xFE)] 0x00 0x00 0x00 0xFD (st 0 0 0 0 0 0 0)) [] =
    some ⟨0x00, 0x00, 0x00, 0xFD, 0x8010, st 0 0 0 0 0 0 0, 3, []⟩ := by decide +kernel

/-- T89: BCC taken cross forward. -/
theorem test_T89 : outcomeOf (start 0x80F0 [(0x80F0, 0x90), (0x80F1, 0x10)] 0x00 0x00 0x00 0xFD (st 0 0 0 0 0 0 0)) [] =
    some ⟨0x00, 0x00, 0x00, 0xFD, 0x8102, st 0 0 0 0 0 0 0, 4, []⟩ := by decide +kernel

/-- T90: BCS taken cross backward. -/
theorem test_T90 : outcomeOf (start 0x8010 [(0x8010, 0xB0), (0x8011, 0x80)] 0x00 0x00 0x00 0xFD (st 0 0 0 0 0 0 1)) [] =
    some ⟨0x00, 0x00, 0x00, 0xFD, 0x7F92, st 0 0 0 0 0 0 1, 4, []⟩ := by decide +kernel

/-- T91: BMI not taken. -/
theorem test_T91 : outcomeOf (start 0x8000 [(0x8000, 0x30), (0x8001, 0x10)] 0x00 0x00 0x00 0xFD (st 0 0 0 0 0 0 0)) [] =
    some ⟨0x00, 0x00, 0x00, 0xFD, 0x8002, st 0 0 0 0 0 0 0, 2, []⟩ := by decide +kernel

/-- T92: BPL taken. -/
theorem test_T92 : outcomeOf (start 0x8000 [(0x8000, 0x10), (0x8001, 0x10)] 0x00 0x00 0x00 0xFD (st 0 0 0 0 0 0 0)) [] =
    some ⟨0x00, 0x00, 0x00, 0xFD, 0x8012, st 0 0 0 0 0 0 0, 3, []⟩ := by decide +kernel

/-- T93: BVC taken. -/
theorem test_T93 : outcomeOf (start 0x8000 [(0x8000, 0x50), (0x8001, 0x01)] 0x00 0x00 0x00 0xFD (st 0 0 0 0 0 0 0)) [] =
    some ⟨0x00, 0x00, 0x00, 0xFD, 0x8003, st 0 0 0 0 0 0 0, 3, []⟩ := by decide +kernel

/-- T94: BVS taken. -/
theorem test_T94 : outcomeOf (start 0x8000 [(0x8000, 0x70), (0x8001, 0x01)] 0x00 0x00 0x00 0xFD (st 0 1 0 0 0 0 0)) [] =
    some ⟨0x00, 0x00, 0x00, 0xFD, 0x8003, st 0 1 0 0 0 0 0, 3, []⟩ := by decide +kernel

/-- T95: BRK. -/
theorem test_T95 : outcomeOf (start 0x8000 [(0x8000, 0x00), (0x8001, 0xFF), (0xFFFE, 0x00), (0xFFFF, 0x90)] 0x00 0x00 0x00 0xFD (st 0 0 0 0 0 0 1)) [0x01FB, 0x01FC, 0x01FD] =
    some ⟨0x00, 0x00, 0x00, 0xFA, 0x9000, st 0 0 0 0 1 0 1, 7, [0x31, 0x02, 0x80]⟩ := by decide +kernel

/-- T96: BRK ignores I. -/
theorem test_T96 : outcomeOf (start 0x8000 [(0x8000, 0x00), (0x8001, 0x00), (0xFFFE, 0x00), (0xFFFF, 0x90)] 0x00 0x00 0x00 0xFD (st 0 0 0 0 1 0 0)) [0x01FB, 0x01FC, 0x01FD] =
    some ⟨0x00, 0x00, 0x00, 0xFA, 0x9000, st 0 0 0 0 1 0 0, 7, [0x34, 0x02, 0x80]⟩ := by decide +kernel

/-- T97: RTI restores P and PC exactly. -/
theorem test_T97 : outcomeOf (start 0x8000 [(0x8000, 0x40), (0x01FB, 0xC3), (0x01FC, 0x34), (0x01FD, 0x12)] 0x00 0x00 0x00 0xFA (st 0 0 0 0 0 0 0)) [] =
    some ⟨0x00, 0x00, 0x00, 0xFD, 0x1234, st 1 1 0 0 0 1 1, 6, []⟩ := by decide +kernel

/-- T98: CLC. -/
theorem test_T98 : outcomeOf (start 0x8000 [(0x8000, 0x18)] 0x00 0x00 0x00 0xFD (st 1 1 0 1 1 1 1)) [] =
    some ⟨0x00, 0x00, 0x00, 0xFD, 0x8001, st 1 1 0 1 1 1 0, 2, []⟩ := by decide +kernel

/-- T99: SEC. -/
theorem test_T99 : outcomeOf (start 0x8000 [(0x8000, 0x38)] 0x00 0x00 0x00 0xFD (st 0 0 0 0 0 0 0)) [] =
    some ⟨0x00, 0x00, 0x00, 0xFD, 0x8001, st 0 0 0 0 0 0 1, 2, []⟩ := by decide +kernel

/-- T100: CLD. -/
theorem test_T100 : outcomeOf (start 0x8000 [(0x8000, 0xD8)] 0x00 0x00 0x00 0xFD (st 0 0 0 1 0 0 0)) [] =
    some ⟨0x00, 0x00, 0x00, 0xFD, 0x8001, st 0 0 0 0 0 0 0, 2, []⟩ := by decide +kernel

/-- T101: SED. -/
theorem test_T101 : outcomeOf (start 0x8000 [(0x8000, 0xF8)] 0x00 0x00 0x00 0xFD (st 0 0 0 0 0 0 0)) [] =
    some ⟨0x00, 0x00, 0x00, 0xFD, 0x8001, st 0 0 0 1 0 0 0, 2, []⟩ := by decide +kernel

/-- T102: CLI. -/
theorem test_T102 : outcomeOf (start 0x8000 [(0x8000, 0x58)] 0x00 0x00 0x00 0xFD (st 0 0 0 0 1 0 0)) [] =
    some ⟨0x00, 0x00, 0x00, 0xFD, 0x8001, st 0 0 0 0 0 0 0, 2, []⟩ := by decide +kernel

/-- T103: SEI. -/
theorem test_T103 : outcomeOf (start 0x8000 [(0x8000, 0x78)] 0x00 0x00 0x00 0xFD (st 0 0 0 0 0 0 0)) [] =
    some ⟨0x00, 0x00, 0x00, 0xFD, 0x8001, st 0 0 0 0 1 0 0, 2, []⟩ := by decide +kernel

/-- T104: CLV. -/
theorem test_T104 : outcomeOf (start 0x8000 [(0x8000, 0xB8)] 0x00 0x00 0x00 0xFD (st 0 1 0 0 0 0 0)) [] =
    some ⟨0x00, 0x00, 0x00, 0xFD, 0x8001, st 0 0 0 0 0 0 0, 2, []⟩ := by decide +kernel

/-- T105: NOP. -/
theorem test_T105 : outcomeOf (start 0x8000 [(0x8000, 0xEA)] 0x01 0x02 0x03 0xFD (st 0 0 0 0 0 0 1)) [] =
    some ⟨0x01, 0x02, 0x03, 0xFD, 0x8001, st 0 0 0 0 0 0 1, 2, []⟩ := by decide +kernel

/-- T106: illegal $02. -/
theorem test_T106 : haltedAs (start 0x8000 [(0x8000, 0x02), (0x8001, 0x00), (0x8002, 0x00)] 0x00 0x00 0x00 0xFD (st 0 0 0 0 0 0 0)) = some (0x8000, 0x02) := by decide +kernel

/-- T111: illegal $EB. -/
theorem test_T111 : haltedAs (start 0x8000 [(0x8000, 0xEB), (0x8001, 0x00), (0x8002, 0x00)] 0x00 0x00 0x00 0xFD (st 0 0 0 0 0 0 0)) = some (0x8000, 0xEB) := by decide +kernel

/-- A NOP at $8000 and the vectors of 95_test_vectors.md section 2.11. -/
def interruptStart (nmi irq : Bool) (op : Byte) (p : Status) : State :=
  { start 0x8000 [(0x8000, op), (0xFFFB, 0x90), (0xFFFF, 0xA0)] 0 0 0 0xFD p with nmiPending := nmi, irqLine := irq }

/-- INT1: NMI is taken whatever I holds. -/
theorem test_INT1 : outcomeOf (interruptStart true false 0xEA (st 0 0 0 0 1 0 1)) [0x1FD, 0x1FC, 0x1FB] =
    some ⟨0, 0, 0, 0xFA, 0x9000, st 0 0 0 0 1 0 1, 7, [0x80, 0x00, 0x25]⟩ := by decide +kernel

/-- INT2: NMI keeps D. -/
theorem test_INT2 : outcomeOf (interruptStart true false 0xEA (st 1 0 0 1 0 0 0)) [0x1FB] =
    some ⟨0, 0, 0, 0xFA, 0x9000, st 1 0 0 1 1 0 0, 7, [0xA8]⟩ := by decide +kernel

/-- INT3: IRQ is taken when I = 0. -/
theorem test_INT3 : outcomeOf (interruptStart false true 0xEA (st 0 0 0 0 0 1 0)) [0x1FD, 0x1FC, 0x1FB] =
    some ⟨0, 0, 0, 0xFA, 0xA000, st 0 0 0 0 1 1 0, 7, [0x80, 0x00, 0x22]⟩ := by decide +kernel

/-- INT4: IRQ is masked when I = 1, and the NOP runs. -/
theorem test_INT4 : outcomeOf (interruptStart false true 0xEA (st 0 0 0 0 1 0 0)) [0x1FD] =
    some ⟨0, 0, 0, 0xFD, 0x8001, st 0 0 0 0 1 0 0, 2, [0x00]⟩ := by decide +kernel

/-- INT5: NMI wins over IRQ. -/
theorem test_INT5 : outcomeOf (interruptStart true true 0xEA (st 0 0 0 0 0 0 0)) [0x1FB] =
    some ⟨0, 0, 0, 0xFA, 0x9000, st 0 0 0 0 1 0 0, 7, [0x20]⟩ := by decide +kernel

/-- INT8: an NMI before a BRK pushes the BRK's own address. -/
theorem test_INT8 : outcomeOf (interruptStart true false 0x00 (st 0 0 0 0 0 0 0)) [0x1FD, 0x1FC, 0x1FB] =
    some ⟨0, 0, 0, 0xFA, 0x9000, st 0 0 0 0 1 0 0, 7, [0x80, 0x00, 0x20]⟩ := by decide +kernel

/-- A property of the state after an access that must answer. -/
def writes (a : Word) (v : Byte) (s : State) (f : State → Bool) : Bool :=
  match memWrite a v s with
  | .ok t => f t
  | .error _ => false

/-- A property of the state after a read that must answer; the byte itself may be a draw. -/
def reads (a : Word) (s : State) (f : Byte → State → Bool) : Bool :=
  match memRead a s with
  | .ok (v, t) => f v t
  | .error _ => false

/-- The start of 95_test_vectors.md section 2.12: no warm-up, another PPU. -/
def port (q : Ppu) : State := { State.reset with warmupCycles := 0, ppu := q }

/-- X1: what a status read returns, whatever the draw. -/
theorem test_X1_value : ∀ d : Byte,
    Ppu.statusByte { Ppu.reset with vblank := true, sprite0Hit := true } d = 0xC0 ||| (d &&& 0x1F) := by decide +kernel

/-- X1 and X2: a status read through a mirror clears VBlank and the latch and nothing else. -/
theorem test_X1_X2_state : reads 0x3FFA { port { Ppu.reset with vblank := true, sprite0Hit := true, w := true } with nmiPending := true }
    (fun _ t => !t.ppu.vblank && !t.ppu.w && t.ppu.sprite0Hit && t.nmiPending) = true := by decide +kernel

/-- X4: the first scroll write. -/
theorem test_X4_scroll_first : writes 0x2005 0x7D (port Ppu.reset)
    (fun t => t.ppu.t == 0x000F && t.ppu.fineX == 5 && t.ppu.w) = true := by decide +kernel

/-- X4: the second scroll write. -/
theorem test_X4_scroll_second : writes 0x2005 0x5E (port { Ppu.reset with t := 0x000F, w := true })
    (fun t => t.ppu.t == 0x616F && !t.ppu.w) = true := by decide +kernel

/-- X4: the first address write. -/
theorem test_X4_address_first : writes 0x2006 0x3D (port { Ppu.reset with t := 0x616F })
    (fun t => t.ppu.t == 0x3D6F && t.ppu.w && t.ppu.v == 0) = true := by decide +kernel

/-- X4: the second address write. -/
theorem test_X4_address_second : writes 0x2006 0xF0 (port { Ppu.reset with t := 0x3D6F, w := true })
    (fun t => t.ppu.t == 0x3DF0 && t.ppu.v == 0x3DF0 && !t.ppu.w) = true := by decide +kernel

/-- X5: the control write's nametable bits. -/
theorem test_X5 : writes 0x2000 0x03 (port { Ppu.reset with t := 0x616F })
    (fun t => t.ppu.ctrl == 0x03 && t.ppu.t == 0x6D6F) = true := by decide +kernel

/-- S5, step 4: a data write and its increment of 1. -/
theorem test_S5_write : writes 0x2007 0xAA (port { Ppu.reset with v := 0x2108 })
    (fun t => t.ppu.vram == [(0x108, 0xAA)] && t.ppu.v == 0x2109) = true := by decide +kernel

/-- S5, step 6: the increment of 32. -/
theorem test_S5_increment : writes 0x2007 0xBB (port { Ppu.reset with v := 0x2109, ctrl := 0x04 })
    (fun t => t.ppu.v == 0x2129) = true := by decide +kernel

/-- S5, step 9: a data read returns the old buffer. -/
theorem test_S5_read : reads 0x2007 (port { Ppu.reset with v := 0x2108, vram := [(0x108, 0xAA)] })
    (fun v t => v == 0x00 && t.ppu.readBuffer == 0xAA && t.ppu.v == 0x2109) = true := by decide +kernel

/-- X6: a palette read is immediate, index $10 aliases $00, and the buffer takes the nametable byte below. -/
theorem test_X6 : reads 0x2007 (port { Ppu.reset with v := 0x3F10, palette := [(0, 0x0F)], vram := [(0x710, 0x5A)] })
    (fun v t => v == 0x0F && t.ppu.readBuffer == 0x5A && t.ppu.v == 0x3F11) = true := by decide +kernel

/-- X7: with vertical mirroring nametable 3 shares nametable 1. -/
theorem test_X7 : (ppuMemWrite 0x2C00 0x66 { State.reset with cart := { Cartridge.blank with mirroring := .vertical } }).ppu.vram =
    [(0x400, 0x66)] := by decide +kernel

/-- X8: the $3000 mirror, with horizontal mirroring. -/
theorem test_X8 : (ppuMemWrite 0x3400 0x77 State.reset).ppu.vram = [(0x000, 0x77)] := by decide +kernel

/-- X9: during the warm-up port 0 ignores a write and port 3 does not. -/
theorem test_X9 : writes 0x2000 0x80 { State.reset with warmupCycles := 101, cyclesTotal := 100 } (fun t => t.ppu.ctrl == 0) = true ∧
    writes 0x2003 0x05 { State.reset with warmupCycles := 101, cyclesTotal := 100 } (fun t => t.ppu.oamAddr == 5) = true := by
  decide +kernel

/-- X10: an OAM data write wraps the address. -/
theorem test_X10 : writes 0x2004 0x12 (port { Ppu.reset with oamAddr := 0xFF })
    (fun t => t.ppu.oam == [(0xFF, 0x12)] && t.ppu.oamAddr == 0) = true := by decide +kernel

/-- X11: enabling NMI during VBlank asserts nothing. -/
theorem test_X11 : writes 0x2000 0x80 (port { Ppu.reset with vblank := true, scanline := 242 })
    (fun t => t.ppu.ctrl == 0x80 && !t.nmiPending) = true := by decide +kernel

/-- X12: VBlank entry. -/
theorem test_X12 : (ppuStep (port { Ppu.reset with ctrl := 0x80, scanline := 241, dot := 1 })).ppu.vblank = true ∧
    (ppuStep (port { Ppu.reset with ctrl := 0x80, scanline := 241, dot := 1 })).nmiPending = true := by decide +kernel

/-- X13: a write to the status port changes nothing. -/
theorem test_X13 : writes 0x2002 0xFF (port Ppu.reset) (fun t => t == port Ppu.reset) = true := by decide +kernel

/-- S6: on an odd frame the step from (261, 338) goes to dot 340, on an even frame to dot 339. -/
theorem test_S6 : (ppuStep (port { Ppu.reset with scanline := 261, dot := 338, frame := 1 })).ppu.dot = 340 ∧
    (ppuStep (port { Ppu.reset with scanline := 261, dot := 338, frame := 2 })).ppu.dot = 339 := by decide +kernel

/-- S7: the pre-render dot clears the three flags. -/
theorem test_S7 :
    (ppuStep (port { Ppu.reset with scanline := 261, dot := 1, vblank := true, sprite0Hit := true, spriteOverflow := true })).ppu = { Ppu.reset with scanline := 261, dot := 2 } := by decide +kernel

/-- The page of RAM that IO1 and IO3 copy, in part. -/
def pageTwo : Memory := [(0x201, 1), (0x202, 2), (0x2FF, 0xFF)]

/-- IO1: OAM DMA in an odd cycle. -/
theorem test_IO1 : writes 0x4014 0x02 { State.reset with ram := pageTwo, cyclesTotal := 3 }
    (fun t => t.ppu.oam == [(1, 1), (2, 2), (0xFF, 0xFF)] && t.dmaStall == 514) = true := by decide +kernel

/-- IO2 and IO3: OAM DMA in an even cycle, from oam_addr on. -/
theorem test_IO2_IO3 : writes 0x4014 0x02 { port { Ppu.reset with oamAddr := 0x10 } with ram := pageTwo, cyclesTotal := 4 }
    (fun t => t.ppu.oam == [(0x0F, 0xFF), (0x11, 1), (0x12, 2)] && t.ppu.oamAddr == 0x10 && t.dmaStall == 513) = true := by
  decide +kernel

/-- IO1: the boundary of STA $4014 in cycle 3 leaves 4 + 514 cycles, of which it counts one. -/
theorem test_IO1_stall :
    (afterBoundary { State.reset with cyclesRemaining := 4, dmaStall := 514 }).cyclesRemaining = 517 := by decide +kernel

/-- IO5: the strobe's fall leaves the buttons in the shift register, and a read shifts in a 1. -/
theorem test_IO5 : (padRead0 { State.reset with pads := ⟨0x09, 0, false, 0x09, 0⟩ }).1 = true ∧
    (padRead0 { State.reset with pads := ⟨0x09, 0, false, 0x09, 0⟩ }).2.pads.shift0 = 0x84 := by decide +kernel

/-- IO6: with the strobe held a read gives button A and shifts nothing. -/
theorem test_IO6 : (padRead0 { State.reset with pads := ⟨0x08, 0, true, 0x08, 0⟩ }).1 = false ∧
    (padRead0 { State.reset with pads := ⟨0x08, 0, true, 0x08, 0⟩ }).2.pads.shift0 = 0x08 := by decide +kernel

/-- IO5: a controller read keeps bits 7 to 5 of the draw and clears bits 4 to 1. -/
theorem test_IO5_byte : ∀ d : Byte, padByte d true = (d &&& 0xE0) + 1 ∧ padByte d false = d &&& 0xE0 := by decide +kernel

/-- IO8: an APU write has no effect. -/
theorem test_IO8 : writes 0x4017 0xFF (port Ppu.reset) (fun t => t == port Ppu.reset) = true := by decide +kernel

/-- The state of Z2 and Z3: a halted session with something in every register. -/
def beforeReset : State :=
  { start 0x8000 [(0xFFFD, 0x80), (0x0200, 1)] 0x12 0x34 0 0x80 (st 1 0 0 0 0 0 1) with halted := true, fault := some (0x8002, 0x02) }

/-- Z2 and Z3: a warm reset keeps RAM and clears the fault. -/
theorem test_Z2 : (let t := warmReset beforeReset
    (t.a, t.x, t.y, t.sp, t.pc, t.p) = (0, 0, 0, 0xFD, 0x8000, st 0 0 0 0 1 0 0) ∧ t.halted = false ∧ t.fault = none ∧
      t.ram = [(0x200, 1)]) := by decide +kernel

/-- Z1: a cold reset zeroes RAM. -/
theorem test_Z1 : (coldReset beforeReset).ram = [] ∧ (coldReset beforeReset).pc = 0x8000 := by decide +kernel

/-- 90_conflicts.md and 20_memory.md R79, R80: a header without the magic, and one cut short. -/
theorem test_load_errors : loadImage [0x4E, 0x45, 0x53] = .error .badMagic ∧ loadImage [0x4E, 0x45, 0x53, 0x1A] = .error .truncated :=
  ⟨rfl, rfl⟩

/-- One step from reset with NOP placed: the NOP's second cycle is left (70_reset_and_hazards.md R410). -/
theorem test_step_nop : (match step (State.reset.withFetchWord 8 0xEA) with
    | .next t => t.pc == 1 && t.cyclesRemaining == 1 && t.cyclesTotal == 1 && t.ppu.dot == 3
    | .fault _ => false
    | .refused _ => false) = true := by decide +kernel

/-! The witnesses: for each statement with hypotheses, states and operands that meet all of them, with values at the edges of each
clause's range. -/

/-- No rendering, no warm-up. -/
def idle : State := { State.reset with warmupCycles := 0, x := 0xFF, y := 0xFF, a := 0x40 }

/-- Rendering on scanline 0, no warm-up. -/
def busy : State := { idle with ppu := { Ppu.reset with mask := 0x18 } }

/-- Whether exec answers a next state. -/
def answers (i : Instr) (s : State) : Bool :=
  match exec i s with
  | .next _ => true
  | .fault _ => false
  | .refused _ => false

/-- Every form's address may be read, and the instruction completes. -/
def readsMeet (l : List (Instr × MemMode)) (s : State) : Bool :=
  l.all fun c => readable (effectiveAddress c.2 s) s && answers c.1 s

/-- Every form's address may be written, and the instruction completes. -/
def writesMeet (l : List (Instr × MemMode)) (v : Byte) (s : State) : Bool :=
  l.all fun c => writable (effectiveAddress c.2 s) v s && answers c.1 s

/-- Every form's address may be read and written, and the instruction completes. -/
def modifiesMeet (l : List (Instr × MemMode)) (s : State) : Bool :=
  l.all fun c => modifiable (effectiveAddress c.2 s) s && answers c.1 s

theorem witness_LoadsPutTheOperandInARegister : readsMeet
    [(.ldaZp 0xFF, .zp 0xFF), (.ldaZpx 0xFF, .zpx 0xFF), (.ldaAbs 0x02FF, .abs 0x02FF), (.ldaAbx 0x02FF, .abx 0x02FF),
      (.ldaAby 0x02FF, .aby 0x02FF), (.ldaIzx 0xFF, .izx 0xFF), (.ldaIzy 0xFF, .izy 0xFF), (.ldxZp 0xFF, .zp 0xFF),
      (.ldxZpy 0xFF, .zpy 0xFF), (.ldxAbs 0x02FF, .abs 0x02FF), (.ldxAby 0x02FF, .aby 0x02FF), (.ldyZp 0xFF, .zp 0xFF),
      (.ldyZpx 0xFF, .zpx 0xFF), (.ldyAbs 0x02FF, .abs 0x02FF), (.ldyAbx 0x02FF, .abx 0x02FF)] busy = true := by decide +kernel

theorem witness_StoresWriteTheRegister : writesMeet
    [(.staZp 0xFF, .zp 0xFF), (.staZpx 0xFF, .zpx 0xFF), (.staAbs 0x02FF, .abs 0x02FF), (.staAbx 0x02FF, .abx 0x02FF),
      (.staAby 0x02FF, .aby 0x02FF), (.staIzx 0xFF, .izx 0xFF), (.staIzy 0xFF, .izy 0xFF), (.stxZp 0xFF, .zp 0xFF),
      (.stxZpy 0xFF, .zpy 0xFF), (.stxAbs 0x02FF, .abs 0x02FF), (.styZp 0xFF, .zp 0xFF), (.styZpx 0xFF, .zpx 0xFF),
      (.styAbs 0x02FF, .abs 0x02FF)] 0xFF busy = true := by decide +kernel

theorem witness_AdcAndSbcAddWithCarry : readsMeet
    [(.adcZp 0xFF, .zp 0xFF), (.adcZpx 0xFF, .zpx 0xFF), (.adcAbs 0x02FF, .abs 0x02FF), (.adcAbx 0x02FF, .abx 0x02FF),
      (.adcAby 0x02FF, .aby 0x02FF), (.adcIzx 0xFF, .izx 0xFF), (.adcIzy 0xFF, .izy 0xFF), (.sbcZp 0xFF, .zp 0xFF),
      (.sbcZpx 0xFF, .zpx 0xFF), (.sbcAbs 0x02FF, .abs 0x02FF), (.sbcAbx 0x02FF, .abx 0x02FF), (.sbcAby 0x02FF, .aby 0x02FF),
      (.sbcIzx 0xFF, .izx 0xFF), (.sbcIzy 0xFF, .izy 0xFF)] busy = true := by decide +kernel

theorem witness_LogicCombinesIntoA : readsMeet
    [(.andZp 0xFF, .zp 0xFF), (.andZpx 0xFF, .zpx 0xFF), (.andAbs 0x02FF, .abs 0x02FF), (.andAbx 0x02FF, .abx 0x02FF),
      (.andAby 0x02FF, .aby 0x02FF), (.andIzx 0xFF, .izx 0xFF), (.andIzy 0xFF, .izy 0xFF), (.oraZp 0xFF, .zp 0xFF),
      (.oraZpx 0xFF, .zpx 0xFF), (.oraAbs 0x02FF, .abs 0x02FF), (.oraAbx 0x02FF, .abx 0x02FF), (.oraAby 0x02FF, .aby 0x02FF),
      (.oraIzx 0xFF, .izx 0xFF), (.oraIzy 0xFF, .izy 0xFF), (.eorZp 0xFF, .zp 0xFF), (.eorZpx 0xFF, .zpx 0xFF),
      (.eorAbs 0x02FF, .abs 0x02FF), (.eorAbx 0x02FF, .abx 0x02FF), (.eorAby 0x02FF, .aby 0x02FF), (.eorIzx 0xFF, .izx 0xFF),
      (.eorIzy 0xFF, .izy 0xFF)] busy = true := by decide +kernel

theorem witness_ComparesAndBitWriteFlagsOnly : readsMeet
    [(.cmpZp 0xFF, .zp 0xFF), (.cmpZpx 0xFF, .zpx 0xFF), (.cmpAbs 0x02FF, .abs 0x02FF), (.cmpAbx 0x02FF, .abx 0x02FF),
      (.cmpAby 0x02FF, .aby 0x02FF), (.cmpIzx 0xFF, .izx 0xFF), (.cmpIzy 0xFF, .izy 0xFF), (.cpxZp 0xFF, .zp 0xFF),
      (.cpxAbs 0x02FF, .abs 0x02FF), (.cpyZp 0xFF, .zp 0xFF), (.cpyAbs 0x02FF, .abs 0x02FF), (.bitZp 0xFF, .zp 0xFF),
      (.bitAbs 0x02FF, .abs 0x02FF)] busy = true := by decide +kernel

theorem witness_IncDecChangeMemory : modifiesMeet
    [(.incZp 0xFF, .zp 0xFF), (.incZpx 0xFF, .zpx 0xFF), (.incAbs 0x02FF, .abs 0x02FF), (.incAbx 0x02FF, .abx 0x02FF),
      (.decZp 0xFF, .zp 0xFF), (.decZpx 0xFF, .zpx 0xFF), (.decAbs 0x02FF, .abs 0x02FF), (.decAbx 0x02FF, .abx 0x02FF)] busy = true := by decide +kernel

theorem witness_ShiftsAndRotatesMoveOneBit : modifiesMeet
    [(.aslZp 0xFF, .zp 0xFF), (.aslZpx 0xFF, .zpx 0xFF), (.aslAbs 0x02FF, .abs 0x02FF), (.aslAbx 0x02FF, .abx 0x02FF),
      (.lsrZp 0xFF, .zp 0xFF), (.lsrZpx 0xFF, .zpx 0xFF), (.lsrAbs 0x02FF, .abs 0x02FF), (.lsrAbx 0x02FF, .abx 0x02FF),
      (.rolZp 0xFF, .zp 0xFF), (.rolZpx 0xFF, .zpx 0xFF), (.rolAbs 0x02FF, .abs 0x02FF), (.rolAbx 0x02FF, .abx 0x02FF),
      (.rorZp 0xFF, .zp 0xFF), (.rorZpx 0xFF, .zpx 0xFF), (.rorAbs 0x02FF, .abs 0x02FF), (.rorAbx 0x02FF, .abx 0x02FF)] busy = true := by decide +kernel

theorem witness_edges_of_readable :
    readable 0x2007 idle = true ∧ readable 0x2007 busy = false ∧ readable 0x3FFC busy = false ∧ readable 0x2006 busy = true ∧
      readable 0x4000 busy = true ∧ readable 0x1FFF busy = true := by decide +kernel

theorem witness_edges_of_writable :
    writable 0x4014 0x1F busy = true ∧ writable 0x4014 0x40 busy = true ∧ writable 0x4014 0x20 busy = false ∧
      writable 0x4014 0x3F busy = false ∧ writable 0x4014 0x20 idle = true ∧ writable 0x2004 0 busy = false ∧
      modifiable 0x4014 idle = true ∧ modifiable 0x4014 busy = false := by decide +kernel

theorem witness_JumpsSetThePc :
    readable 0x02FF busy = true ∧ readable (word (lo 0x0300) (hi 0x02FF)) busy = true ∧ answers (.jmpInd 0x02FF) busy = true ∧
      readable 0x20FF idle = true ∧ readable (word (lo 0x2100) (hi 0x20FF)) idle = true := by decide +kernel

/-- The eight conditions with every flag clear, and with every flag set. -/
theorem witness_BranchesFollowTheirFlag :
    let conds : List (State → Bool) :=
      [fun s => !s.p.c, fun s => s.p.c, fun s => s.p.z, fun s => s.p.n, fun s => !s.p.z, fun s => !s.p.n, fun s => !s.p.v, fun s => s.p.v]
    conds.map (fun c => c { idle with p := st 0 0 0 0 0 0 0 }) = [true, false, false, false, true, true, true, false] ∧
      conds.map (fun c => c { idle with p := st 1 1 1 1 1 1 1 }) = [false, true, true, true, false, false, false, true] := by
  decide +kernel

/-- A session at $8000 with this opcode byte there. -/
def at8000 (op : Byte) : State := start 0x8000 [(0x8000, op)] 0 0 0 0xFD (st 0 0 0 0 0 0 0)

theorem witness_UndefinedOpcodeHaltsTheSession :
    ((at8000 0x02).halted = false ∧ (at8000 0x02).cyclesRemaining = 0 ∧ noInterrupt (atBoundary (at8000 0x02))) ∧
      reads (at8000 0x02).pc (atBoundary (at8000 0x02)) (fun op _ => op == 0x02) = true ∧ undefinedOpcodes.contains 0x02 = true ∧
      (coldReset beforeReset).halted = false ∧ beforeReset.halted = true :=
  ⟨⟨rfl, rfl, by unfold noInterrupt; decide +kernel⟩, by decide +kernel, by decide, rfl, rfl⟩

theorem witness_RamIsMirroredEveryTwoKib :
    Memory.wf [(0x7FF, 5)] ∧ (0x1FFF : Word).toNat < 0x2000 ∧ (0x07FF : Word).toNat < 0x2000 ∧ (0x0000 : Word).toNat < 0x2000 := by
  decide +kernel

theorem witness_CartridgeRegionReadsRomOrADraw :
    0x8000 ≤ (0x8000 : Word).toNat ∧ 0x8000 ≤ (0xFFFF : Word).toNat ∧ 0x4020 ≤ (0x4020 : Word).toNat ∧
      (0x4020 : Word).toNat < 0x8000 ∧ 0x4020 ≤ (0x7FFF : Word).toNat ∧ (0x7FFF : Word).toNat < 0x8000 := by decide +kernel

theorem witness_StatusReadClearsVblankAndLatch : atPort 2 0x2002 ∧ atPort 2 0x3FFA := by unfold atPort; decide +kernel

theorem witness_WarmupIgnoresFourPorts :
    ({ idle with warmupCycles := 1 } : State).cyclesTotal < ({ idle with warmupCycles := 1 } : State).warmupCycles ∧
      [(0x2000 : Word), 0x2001, 0x3FFD, 0x3FFE].map (fun a => a.toNat % 8) = [0, 1, 5, 6] ∧
      [(0x2003 : Word), 0x2004, 0x3FFF].map (fun a => a.toNat % 8) = [3, 4, 7] := by decide +kernel

theorem witness_ControlWriteSetsNametableBits :
    idle.warmupCycles ≤ idle.cyclesTotal ∧ (atPort 0 0x2000 ∧ atPort 0 0x3FF8) ∧ (atPort 1 0x2001 ∧ atPort 1 0x3FF9) ∧
      (atPort 2 0x2002 ∧ atPort 2 0x3FFA) ∧ atPort 3 0x2003 ∧ atPort 3 0x3FFB := by unfold atPort; decide +kernel

theorem witness_ScrollAndAddressTakeTwoWrites :
    idle.warmupCycles ≤ idle.cyclesTotal ∧ (atPort 5 0x2005 ∧ atPort 5 0x3FFD) ∧ (atPort 6 0x2006 ∧ atPort 6 0x3FFE) ∧
      idle.ppu.w = false ∧ ({ idle.ppu with w := true } : Ppu).w = true := by unfold atPort; decide +kernel

/-- A state with this mask on this scanline. -/
def rendersAt (mask : Byte) (scanline : Nat) : State := { idle with ppu := { Ppu.reset with mask := mask, scanline := scanline } }

/-- A state whose data port points at `v`. -/
def pointing (v : BitVec 15) : State := { idle with ppu := { Ppu.reset with v := v } }

theorem witness_DataPortDelaysReadsAndAdvances :
    (atPort 7 0x2007 ∧ atPort 7 0x3FFF) ∧ renders busy ∧ renders (rendersAt 0x08 239) ∧ renders (rendersAt 0x10 261) ∧
      ¬renders (rendersAt 0x18 240) ∧ ¬renders (rendersAt 0x18 260) ∧ ¬renders (rendersAt 0xE7 0) ∧
      ¬renders (pointing 0x7EFF) ∧ (pointing 0x7EFF).ppu.v.toNat % 16384 < 0x3F00 ∧
      0x3F00 ≤ (pointing 0x3F00).ppu.v.toNat % 16384 ∧ 0x3F00 ≤ (pointing 0x7FFF).ppu.v.toNat % 16384 := by
  unfold atPort renders; decide +kernel

theorem witness_PpuMemoryMapMirrors :
    idle.memoriesOk ∧ idle.cart.mirroring = .horizontal ∧ ({ Cartridge.blank with mirroring := .vertical } : Cartridge).mirroring = .vertical ∧
      ppuCell idle 0x1FFF = (0, 0x1FFF) ∧ ppuCell idle 0x2000 = (1, 0) ∧ ppuCell idle 0x2FFF = (1, 0x7FF) ∧
      ppuCell idle 0x3000 = (1, 0) ∧ ppuCell idle 0x3EFF = (1, 0x6FF) ∧ ppuCell idle 0x3F00 = (2, 0) ∧
      ppuCell idle 0x3F10 = (2, 0) ∧ ppuCell idle 0x3FFF = (2, 31) := by decide +kernel

theorem witness_OamPortsReadAndWriteOam :
    atPort 4 0x2004 ∧ atPort 4 0x3FFC ∧ Memory.wf [(0xFF, 1)] ∧ busy.ppu.oam.wf ∧ renders busy ∧
      idle.ppu.oam.wf ∧ ¬renders idle := by unfold atPort renders; decide +kernel

/-- Pages at the edges of each clause: RAM, the ports off and on rendering, open bus, program ROM. -/
theorem witness_OamDmaCopiesAPage :
    idle.ppu.oam.wf ∧ (0x1F : Byte).toNat < 0x20 ∧ 0x80 ≤ (0x80 : Byte).toNat ∧ 0x80 ≤ (0xFF : Byte).toNat ∧
      ¬(renders idle ∧ 0x20 ≤ (0x20 : Byte).toNat ∧ (0x20 : Byte).toNat < 0x40) ∧
      ¬(renders busy ∧ 0x20 ≤ (0x40 : Byte).toNat ∧ (0x40 : Byte).toNat < 0x40) ∧
      (renders busy ∧ 0x20 ≤ (0x20 : Byte).toNat ∧ (0x20 : Byte).toNat < 0x40) ∧ (0x3F : Byte).toNat < 0x40 ∧
      (0x41 ≤ (0x41 : Byte).toNat ∧ (0x41 : Byte).toNat < 0x80) ∧ (0x7F : Byte).toNat < 0x80 := by unfold renders; decide +kernel

/-- R363 with a page of ports: its 256 reads clear VBlank and the latch, advance `v` 32 times and draw six times in each group of eight. -/
theorem test_dma_ports : writes 0x4014 0x20 { port { Ppu.reset with vblank := true, w := true, oamAddr := 2, oam := [(2, 9)] } with cyclesTotal := 1 }
    (fun t => !t.ppu.vblank && !t.ppu.w && t.ppu.v == 32 && t.openDraws == 192 && t.dmaStall == 514 && t.ppu.oamAddr == 2) = true := by
  decide +kernel

theorem witness_ControllersShiftOutButtons : idle.pads.strobe = false := by decide +kernel

theorem witness_ApuAndPortDrawsHaveNoEffect :
    [(0x4000 : Word), 0x4013, 0x4015, 0x4017, 0x401F].all (fun a => decide (0x4000 ≤ a.toNat) && decide (a.toNat < 0x4020) &&
      a != 0x4014 && a != 0x4016) = true ∧ ((0x4014 : Word) ≠ 0x4016 ∧ (0x4014 : Word) ≠ 0x4017) ∧
      [(0x2000 : Word), 0x2001, 0x2003, 0x2005, 0x3FFE].all (fun a => decide (0x2000 ≤ a.toNat) && decide (a.toNat < 0x4000) &&
        a.toNat % 8 != 2 && a.toNat % 8 != 4 && a.toNat % 8 != 7) = true := by decide +kernel

/-- A state before a dot of a frame. -/
def atDot (scanline dot frame : Nat) : State := { idle with ppu := { Ppu.reset with scanline := scanline, dot := dot, frame := frame } }

theorem witness_PpuStepAdvancesOneDot :
    (atDot 260 340 1).ppu.positionOk ∧ (atDot 261 340 1).ppu.positionOk ∧ (atDot 261 338 1).ppu.positionOk ∧
      (atDot 261 339 2).ppu.positionOk ∧ (atDot 0 0 0).ppu.positionOk ∧ ¬(atDot 261 339 1).ppu.positionOk := by decide +kernel

theorem witness_FramesHaveTheirDotCounts : frameStart (atDot 0 0 1) ∧ frameStart (atDot 0 0 2) ∧ 89340 < 89341 ∧ 89341 < 89342 := by
  unfold frameStart; decide +kernel

theorem witness_VblankEntryAssertsNmi :
    ((atDot 241 1 0).ppu.scanline = 241 ∧ (atDot 241 1 0).ppu.dot = 1) ∧ ¬((atDot 241 2 0).ppu.scanline = 241 ∧ (atDot 241 2 0).ppu.dot = 1) ∧
      ¬((atDot 241 2 0).ppu.scanline = 261 ∧ (atDot 241 2 0).ppu.dot = 1) ∧
      ((atDot 261 1 0).ppu.scanline = 261 ∧ (atDot 261 1 0).ppu.dot = 1) ∧ (∃ t, exec .nop idle = .next t) ∧
      ∃ t, step { idle with cyclesRemaining := 1, nmiPending := true } = .next t ∧ t.nmiPending = true :=
  ⟨⟨rfl, rfl⟩, by decide +kernel, by decide +kernel, ⟨rfl, rfl⟩, ⟨_, rfl⟩, _, rfl, rfl⟩

/-- Both sprite flags set, which only states no run reaches hold at this dot. -/
def flagged : State := { atDot 261 2 0 with ppu := { (atDot 261 2 0).ppu with sprite0Hit := true, spriteOverflow := true } }

theorem witness_SpriteFlagsNeedRendering :
    (¬((atDot 261 2 0).ppu.scanline = 261 ∧ (atDot 261 2 0).ppu.dot = 1) ∧
      (ppuStep flagged).ppu.sprite0Hit = true ∧ (ppuStep flagged).ppu.spriteOverflow = true) ∧
      bitOf 3 idle.ppu.mask = false ∧ bitOf 4 idle.ppu.mask = false ∧ bitOf 4 (0x08 : Byte) = false ∧ bitOf 3 (0x10 : Byte) = false := by
  decide +kernel

theorem witness_NmiIsTakenAtABoundary :
    (idle.halted = false ∧ idle.cyclesRemaining = 0) ∧
      (threeDots { idle with ppu := { Ppu.reset with ctrl := 0x80, scanline := 240, dot := 340 } }).nmiPending = true ∧
      (threeDots { idle with nmiPending := true }).nmiPending = true := by decide +kernel

theorem witness_IrqIsTakenOnlyWhenIIsClear :
    let open_ : State := { at8000 0xEA with irqLine := true }
    let masked : State := { open_ with p := st 0 0 0 0 1 0 0 }
    (open_.halted = false ∧ open_.cyclesRemaining = 0 ∧ (threeDots open_).nmiPending = false ∧ open_.irqLine = true ∧
      open_.p.i = false) ∧
    (masked.halted = false ∧ masked.cyclesRemaining = 0 ∧ (threeDots masked).nmiPending = false ∧ masked.irqLine = true ∧
      masked.p.i = true) ∧
    (∃ u t, fetch (atBoundary masked) = .ok (.nop, u) ∧ exec .nop u = .next t) ∧ ∃ t, step idle = .next t :=
  ⟨by decide +kernel, by decide +kernel, ⟨_, _, rfl, rfl⟩, _, rfl⟩

theorem witness_CyclesBetweenBoundariesOnlyCount :
    ({ idle with cyclesRemaining := 1 } : State).halted = false ∧ ({ idle with cyclesRemaining := 1 } : State).cyclesRemaining = 0 + 1 := by
  decide +kernel

theorem witness_StepRunsTheDecodedInstruction :
    (at8000 0xEA).halted = false ∧ (at8000 0xEA).cyclesRemaining = 0 ∧ noInterrupt (atBoundary (at8000 0xEA)) ∧
      ∃ u, fetch (atBoundary (at8000 0xEA)) = .ok (.nop, u) :=
  ⟨rfl, rfl, by unfold noInterrupt; decide +kernel, _, rfl⟩

/-- PC at $FFFF, so that the second byte is at $0000 (00_scope.md R7). -/
def atTop : State := start 0xFFFF [(0xFFFF, 0xA9), (0x0000, 0x05)] 0 0 0 0xFD (st 0 0 0 0 0 0 0)

/-- BRK at $1FFF, with PPU port 0 where its padding byte would be. -/
def brkBeforePorts : State := { idle with pc := 0x1FFF }

theorem witness_FetchReadsTheInstructionBytes :
    ((Instr.ldaImm 0x05).wellFormed = true ∧ ∀ k (h : k < (encode (.ldaImm 0x05)).length), ¬(Instr.ldaImm 0x05 = .brk ∧ k = 1) →
      plainByte atTop (atTop.pc + BitVec.ofNat 16 k) = some (encode (.ldaImm 0x05))[k]) ∧
    (Instr.brk.wellFormed = true ∧ ∀ k (h : k < (encode .brk).length), ¬(Instr.brk = .brk ∧ k = 1) →
      plainByte brkBeforePorts (brkBeforePorts.pc + BitVec.ofNat 16 k) = some (encode .brk)[k]) := by decide +kernel

theorem witness_PlacedWordIsFetchedNext : State.reset.memoriesOk ∧ decodeTableWord 24 0x02008D = some (.staAbs 0x0200) ∧
    decodeTableWord 8 0x02 = some (.illegal 0x02) := by decide +kernel

theorem witness_ColdResetZeroesAndLoadsTheVector :
    State.reset.cart.pattern = .ram ∧ ({ Cartridge.blank with pattern := .rom 1 } : Cartridge).pattern ≠ .ram := by decide +kernel

/-- An image of the least size: one bank of program ROM and no pattern ROM. -/
def leastImage : List Byte := [0x4E, 0x45, 0x53, 0x1A, 1, 0, 0, 0, 0, 0, 0, 0, 0, 0, 0, 0] ++ List.replicate 16384 0

theorem witness_BadImagesAreNotLoaded :
    leastImage.take 4 = [0x4E, 0x45, 0x53, 0x1A] ∧ imageByte leastImage 6 / 16 = 0 ∧ imageByte leastImage 7 / 16 = 0 ∧
      imageByte leastImage 4 = 1 ∧ 16 ≤ leastImage.length ∧
      prgStart leastImage + 16384 * imageByte leastImage 4 + 8192 * imageByte leastImage 5 ≤ leastImage.length ∧
      ∃ c, loadImage leastImage = .ok c := by
  have hl : leastImage.length = 16400 := by rw [leastImage, List.length_append, List.length_replicate]; rfl
  have ht : leastImage.take 4 = imageMagic := rfl
  have h4 : leastImage.getD 4 0 = 1 := rfl
  have h5 : leastImage.getD 5 0 = 0 := rfl
  have h6 : leastImage.getD 6 0 = 0 := rfl
  have h7 : leastImage.getD 7 0 = 0 := rfl
  unfold prgStart imageByte loadImage imageMapper imagePrgStart imagePrgLength imageChrLength
  rw [ht, hl, h4, h5, h6, h7]
  exact ⟨rfl, rfl, rfl, rfl, by decide, by decide, _, rfl⟩

theorem witness_DecodingAnEncodedInstructionGivesItBack :
    (Instr.illegal 0x02).wellFormed = true ∧ (Instr.illegal 0xFF).wellFormed = true ∧ Instr.brk.wellFormed = true ∧
      (Instr.ldaAbs 0xFFFF).wellFormed = true := by decide +kernel

theorem witness_EveryOpcodeByteDecodes : decode [0x00, 0xEA, 0x02] = .ok (.brk, [0x02]) ∧ (0x00 : Byte) = 0x00 ∧ Instr.nop ≠ .brk :=
  ⟨rfl, rfl, by decide⟩

theorem witness_AccumulatorIsWrittenOnlyByItsInstructions :
    (∃ t, exec .nop idle = .next t) ∧ Mnemonic.nop ∉ [Mnemonic.lda, .pla, .txa, .tya, .adc, .sbc, .and, .ora, .eor] ∧
      Instr.nop.mode ≠ .acc ∧ (Instr.aslZp 0xFF).mode ≠ .acc ∧ answers (.aslZp 0xFF) idle = true := by
  exact ⟨⟨_, rfl⟩, by decide +kernel⟩

theorem witness_FlagsAreWrittenOnlyByTheirInstructions :
    [Instr.nop, .sed, .txs, .pha, .jsrAbs 0xFFFF, .rts, .bcc 0x80].all (answers · idle) = true ∧ Instr.nop.mnemonic = .nop := by
  decide +kernel

theorem witness_StackPointerMovesByItsInstructions :
    [Instr.pha, .php, .jsrAbs 0xFFFF, .brk, .pla, .plp, .rts, .rti, .txs, .nop].all (answers · { idle with sp := 0 }) = true ∧
      [Instr.pha, .php, .jsrAbs 0xFFFF, .brk, .pla, .plp, .rts, .rti, .txs, .nop].map Instr.mnemonic =
        [.pha, .php, .jsr, .brk, .pla, .plp, .rts, .rti, .txs, .nop] := by decide +kernel

theorem witness_InstructionsThatDoNotStoreKeepMemory :
    (Instr.ldaAbs 0x2007).mnemonic ∉ storing ∧ answers (.ldaAbs 0x2007) idle = true ∧ Instr.aslAcc.mode = .acc ∧
      answers .aslAcc idle = true := by decide +kernel

/-- A store to RAM, to each of the two PPU data ports and to the DMA port, and an address next to the stored one. -/
theorem witness_StoresChangeOnlyTheirByte :
    idle.memoriesOk ∧ [(0x1FFF : Word), 0x2000, 0x2004, 0x3FFF, 0x4014].all (fun a =>
      storeForm (.staAbs a) == some (.abs a) && answers (.staAbs a) idle) = true ∧
      ¬((0x1FFF : Nat) < 0x2000 ∧ (0x17FE : Nat) < 0x2000 ∧ 0x17FE % 2048 = 0x1FFF % 2048) := by decide +kernel

theorem witness_PushesChangeOnlyTheirSlots :
    [Instr.pha, .php, .jsrAbs 0xFFFF, .brk].all (answers · { idle with sp := 1 }) = true ∧
      (∀ k, k < 3 → ¬((0x01FE : Word).toNat < 0x2000 ∧ (0x01FE : Word).toNat % 2048 = (stackAddr ((1 : Byte) - BitVec.ofNat 8 k)).toNat)) := by
  decide +kernel

theorem witness_InstructionsKeepTimingAndInputs :
    (∃ t, exec .nop idle = .next t) ∧ (∃ t, exec (.ldaAbs 0x2002) { idle with ppu := { Ppu.reset with vblank := true } } = .next t) ∧
      Instr.nop.mnemonic ≠ .illegal := ⟨⟨_, rfl⟩, ⟨_, rfl⟩, by decide⟩

/-- The refused accesses of each kind: an effective address, a pointer byte, a page that STA or INC copies, a fetch. -/
theorem witness_InstructionsAreRefusedOnlyWhileRendering :
    exec (.ldaAbs 0x2007) busy = .refused (.portWhileRendering 7) ∧ exec (.staAbs 0x3FFC) busy = .refused (.portWhileRendering 4) ∧
      exec (.jmpInd 0x2003) busy = .refused (.portWhileRendering 4) ∧
      exec (.staAbs 0x4014) { busy with a := 0x3F } = .refused (.portWhileRendering 4) ∧
      fetch { busy with pc := 0x3FFF } = .error (.portWhileRendering 7) := ⟨rfl, rfl, rfl, rfl, rfl⟩

theorem witness_refused_accesses :
    renders busy ∧ dataPort 4 0x3FFC ∧ dataPort 7 0x2007 ∧ dataPort 4 (word 0x04 (dmaPage (.staAbs 0x4014) { busy with a := 0x3F })) ∧
      storeForm (.staAbs 0x4014) = some (.abs 0x4014) ∧ dataPort 4 (word (lo 0x2004) (hi 0x2003)) := by
  unfold renders dataPort atPort; decide +kernel

theorem witness_refused_step :
    let s : State := { busy with pc := 0x3FFF }
    s.halted = false ∧ s.cyclesRemaining = 0 ∧ noInterrupt (atBoundary s) ∧ fetch (atBoundary s) = .error (.portWhileRendering 7) :=
  ⟨rfl, rfl, by unfold noInterrupt; decide +kernel, rfl⟩

theorem witness_CostsAreTheTablesBaseCosts :
    [Instr.staAbx 0x02FF, .ldaAbx 0x02FF, .bcc 0x80, .brk, .jmpInd 0x02FF].all (answers · idle) = true ∧
      storeForm (.staAbx 0x02FF) ≠ none ∧ (Instr.ldaAbx 0x02FF).mode = .abx ∧ (Instr.bcc 0x80).mode = .rel ∧
      Instr.brk.mode ∉ [.abx, .aby, .izy, .rel] := by decide +kernel

theorem witness_EveryStepKeepsTheInvariant : State.reset.Inv ∧ (busy.Inv ∧ answers .nop busy = true) ∧ (∃ t, step busy = .next t) :=
  ⟨by decide +kernel, by decide +kernel, _, rfl⟩

theorem witness_RunningMachineAlwaysHasANextStep : State.reset.Running ∧ idle.Running ∧ ¬busy.Running := by decide +kernel

end Sys2Proof.Tests
end

section
/-! SUPPORT. The internal RAM (20_memory.md R65): what a read answers after a write through any mirror, and what the two resets
make of it. -/

namespace Sys2Proof.Machine

/-- After a bus write to RAM, a bus read of RAM answers the byte written when both addresses mirror the same byte. -/
theorem memRead_memWrite_ram {s : State} (hwf : s.ram.wf) {a b : Word} (v : Byte) (ha : a.toNat ≤ 0x1FFF) (hb : b.toNat ≤ 0x1FFF) :
    ∃ t, memWrite a v s = .ok t ∧ t = { s with ram := t.ram } ∧
      memRead b t = .ok (if ramIndex b = ramIndex a then v else s.ram.get (ramIndex b), t) :=
  ⟨_, memWrite_ram v s ha, rfl, by rw [memRead_ram _ hb, Memory.get_set _ hwf]⟩

/-- A warm reset keeps RAM (70_reset_and_hazards.md R401). -/
@[simp] theorem warmReset_ram (s : State) : (warmReset s).ram = s.ram := rfl

/-- A cold reset empties RAM (70_reset_and_hazards.md R400). -/
@[simp] theorem coldReset_ram (s : State) : (coldReset s).ram = [] := rfl

/-- Memory with no stored cell reads as 0. -/
@[simp] theorem Memory.get_nil (a : Nat) : Memory.get [] a = 0 := rfl

end Sys2Proof.Machine

open Sys2Proof.Machine

/-- Settles O21: the read and write laws of RAM at an address are those of its index modulo 2 KiB. -/
theorem ramIsMirroredEveryTwoKib : Obligations.RamIsMirroredEveryTwoKib := by
  intro s a b v hwf ha hb
  have ha' : a.toNat ≤ 0x1FFF := Nat.le_of_lt_succ ha
  have hb' : b.toNat ≤ 0x1FFF := Nat.le_of_lt_succ hb
  have hcold : (coldReset s).ram.get (a.toNat % 2048) = 0 := by rw [coldReset_ram, Memory.get_nil]
  exact ⟨memRead_ram s hb', memRead_memWrite_ram hwf v ha' hb', hcold, warmReset_ram s⟩
end

section
/-! SUPPORT. Operand addresses as numbers: the index additions and their page crossing, pointer bytes in page 0, and branch targets
(40_addressing.md R134 to R143). -/

namespace Sys2Proof.Machine

open Sys2Proof.Claims

/-- The claims' `hi:lo` is the model's (00_scope.md R7). -/
theorem word_eq_wordOf (lo hi : Byte) : word lo hi = wordOf lo hi := by
  rw [word, ← wordOf_toNat, BitVec.ofNat_toNat, BitVec.setWidth_eq]

/-- Two addresses are in different pages when their numbers differ above the low byte (00_scope.md R13). -/
theorem otherPage_iff (a b : Word) : otherPage a b = true ↔ a.toNat / 256 ≠ b.toNat / 256 := by
  rw [otherPage, bne_iff_ne, ne_eq, ← BitVec.toNat_inj, highByte_toNat, highByte_toNat]

/-- A zero-page address stays in page 0 (R134). -/
theorem zeroPageAddress_toNat (z : Byte) : (z.setWidth 16).toNat = z.toNat :=
  BitVec.toNat_setWidth_of_le (by decide)

/-- An indexed zero-page address wraps inside page 0 (R135, R136). -/
theorem zeroPageIndexed_toNat (z i : Byte) : ((z + i).setWidth 16).toNat = (z.toNat + i.toNat) % 256 := by
  rw [zeroPageAddress_toNat, BitVec.toNat_add]

/-- An indexed 16-bit address carries into the high byte and wraps past $FFFF (R138, R139, R142). -/
theorem indexed_toNat (a : Word) (i : Byte) : (a + i.setWidth 16).toNat = (a.toNat + i.toNat) % 65536 := by
  rw [BitVec.toNat_add, zeroPageAddress_toNat]

/-- Indexing crosses a page when the sum leaves the page of the base, also by the wrap past $FFFF (R138). -/
theorem otherPage_indexed_iff (a : Word) (i : Byte) :
    otherPage a (a + i.setWidth 16) = true ↔ a.toNat / 256 ≠ (a.toNat + i.toNat) % 65536 / 256 := by
  rw [otherPage_iff, indexed_toNat]

/-- A bus read at a zero-page address given as a number (R141, R142). -/
theorem memRead_zeroPage_of_toNat (s : State) {z : Byte} {n : Nat} (h : z.toNat = n) :
    memRead (BitVec.ofNat 16 n) s = .ok (s.zeroPage z, s) := by
  rw [← h, ← zeroPageAddress_toNat, BitVec.ofNat_toNat, BitVec.setWidth_eq, zeroPage_memRead]

/-- The zero-page word at a pointer is two bus reads, the second at the next address inside page 0 (R141, R142). -/
theorem zeroPageWord_memRead (s : State) (z : Byte) :
    ∃ vlo vhi, memRead (BitVec.ofNat 16 z.toNat) s = .ok (vlo, s) ∧
      memRead (BitVec.ofNat 16 ((z.toNat + 1) % 256)) s = .ok (vhi, s) ∧ s.zeroPageWord z = word vlo vhi :=
  ⟨s.zeroPage z, s.zeroPage (z + 1), memRead_zeroPage_of_toNat s rfl, memRead_zeroPage_of_toNat s (BitVec.toNat_add z 1),
    (word_eq_wordOf _ _).symm⟩

/-- The model's branch target is the signed offset from the next instruction: sign extension keeps the signed value (R143). -/
theorem branchTarget_eq_target (off : Byte) (s : State) : branchTarget off s = target s off := by
  rw [target, BitVec.ofInt_add, BitVec.ofInt_add, BitVec.ofInt_natCast, BitVec.ofNat_toNat, BitVec.setWidth_eq]
  rfl

/-- The cost of a taken branch (R143, 70_reset_and_hazards.md R412). -/
theorem takenCost_eq (a b : Word) : 3 + (otherPage a b).toNat = if a.toNat / 256 = b.toNat / 256 then 3 else 4 := by
  by_cases h : a.toNat / 256 = b.toNat / 256
  · have : otherPage a b = false := by rw [← Bool.not_eq_true, otherPage_iff]; exact not_not_intro h
    rw [if_pos h, this, Bool.toNat_false]
  · rw [if_neg h, (otherPage_iff a b).2 h, Bool.toNat_true]

/-- An instruction that is `branch` on its condition meets the statement of a branch. -/
theorem branchForm_of_branch {i : Instr} {bytes : List Byte} {off : Byte} {cond : State → Bool} (hb : encode i = bytes)
    (he : ∀ s, exec i s = branch (cond s) off s) : BranchForm i bytes off cond := by
  refine ⟨hb, fun s => ⟨fun h => ?_, fun h => ?_⟩⟩
  · rw [he, h, branch, if_pos rfl, branchTarget_eq_target, takenCost_eq, State.retire]
  · rw [he, h, branch, if_neg Bool.false_ne_true, State.retire]

end Sys2Proof.Machine

open Sys2Proof.Machine

/-- Settles O13: each branch is the shared `branch` on its own flag. -/
theorem branchesFollowTheirFlag : Obligations.BranchesFollowTheirFlag := by
  refine ⟨?_, ?_, ?_, ?_, ?_, ?_, ?_, ?_⟩ <;> exact fun _ => branchForm_of_branch rfl fun _ => rfl

/-- Settles O18: the index additions are modulo 256 in page 0 and modulo 65536 elsewhere, and only the latter can cross a page. -/
theorem directFormsComputeTheirAddress : Obligations.DirectFormsComputeTheirAddress := by
  intro s z a
  exact ⟨zeroPageAddress_toNat z, zeroPageIndexed_toNat z s.x, zeroPageIndexed_toNat z s.y, rfl, rfl, rfl, rfl, rfl,
    indexed_toNat a s.x, otherPage_indexed_iff a s.x, indexed_toNat a s.y, otherPage_indexed_iff a s.y⟩

/-- Settles O19: both pointers are zero-page words, at the indexed byte for (zp,X) and at the operand for (zp),Y. -/
theorem indirectFormsReadPointersInPageZero : Obligations.IndirectFormsReadPointersInPageZero := by
  intro s z
  constructor
  · obtain ⟨vlo, vhi, hlo, hhi, hw⟩ := zeroPageWord_memRead s (z + s.x)
    rw [BitVec.toNat_add] at hlo hhi
    rw [Nat.mod_add_mod] at hhi
    exact ⟨vlo, vhi, hlo, hhi, hw, rfl⟩
  · obtain ⟨vlo, vhi, hlo, hhi, hw⟩ := zeroPageWord_memRead s z
    refine ⟨vlo, vhi, hlo, hhi, ?_⟩
    rw [← hw]
    exact ⟨indexed_toNat _ s.y, otherPage_indexed_iff _ s.y⟩
end

section
/-! SUPPORT. The statements' words for an operand form, met once by each access class of the model: an instruction that is one of the
classes on its own arguments has the form (40_addressing.md R133, R144, R146). -/

namespace Sys2Proof.Machine

open Sys2Proof.Claims

/-- The claims' low byte is the model's (00_scope.md R7). -/
theorem lo_eq_lowByte : lo = lowByte := by
  funext a
  apply BitVec.eq_of_toNat_eq
  rw [lo, BitVec.toNat_ofNat, Nat.mod_mod, lowByte_toNat]

/-- The claims' high byte is the model's (00_scope.md R7). -/
theorem hi_eq_highByte : hi = highByte := by
  funext a
  rw [hi, ← highByte_toNat, BitVec.ofNat_toNat, BitVec.setWidth_eq]

/-- The claims' `setNZ` is the model's (00_scope.md R8). -/
theorem nz_eq_setNZ : nz = setNZ := by
  funext p r
  rw [nz, setNZ_eq_num]

/-- LDA's effect writes A with its flags (41_load_store_transfer.md R160). -/
theorem loadA_eq_writeA : loadA = State.writeA := by
  funext v s
  rw [loadA, nz_eq_setNZ, State.writeA]

/-- LDX's effect writes X with its flags (41_load_store_transfer.md R161). -/
theorem loadX_eq_writeX : loadX = State.writeX := by
  funext v s
  rw [loadX, nz_eq_setNZ, State.writeX]

/-- LDY's effect writes Y with its flags (41_load_store_transfer.md R162). -/
theorem loadY_eq_writeY : loadY = State.writeY := by
  funext v s
  rw [loadY, nz_eq_setNZ, State.writeY]

/-- The end of an instruction is a state past its bytes, as many as its form has (00_scope.md R11). -/
theorem retire_eq_past {bytes : List Byte} {len : Word} (hl : BitVec.ofNat 16 bytes.length = len) (s t : State) (cost : Nat) :
    t.retire (s.pc + len) cost = past s bytes cost t := by
  rw [past, hl, State.retire]

/-- An instruction that is `implied` on its effect meets the statement of an implied form. -/
theorem impliedForm_of_implied {i : Instr} {bytes : List Byte} {cost : Nat} {effect : State → State} (hb : encode i = bytes)
    (hl : BitVec.ofNat 16 bytes.length = 1) (he : ∀ s, exec i s = implied cost effect s) : ImpliedForm i bytes cost effect :=
  ⟨hb, fun s => by rw [he, implied, retire_eq_past hl]⟩

/-- An instruction that is `readImm` on its effect meets the statement of an immediate form. -/
theorem immForm_of_readImm {i : Instr} {bytes : List Byte} {v : Byte} {effect : Byte → State → State} (hb : encode i = bytes)
    (hl : BitVec.ofNat 16 bytes.length = 2) (he : ∀ s, exec i s = readImm v effect s) : ImmForm i bytes v effect :=
  ⟨hb, fun s => by rw [he, readImm, retire_eq_past hl]⟩

/-- An instruction that is `readMem` on its operand form and effect meets the statement of a read-class form. -/
theorem readForm_of_readMem {i : Instr} {bytes : List Byte} {m : MemMode} {base : Nat} {effect : Byte → State → State}
    (hb : encode i = bytes) (hl : BitVec.ofNat 16 bytes.length = modeLength m)
    (he : ∀ s, exec i s = readMem m base effect s) : ReadForm i bytes m base effect := by
  refine ⟨hb, fun s hs => ?_⟩
  obtain ⟨v, t, hread, hnext⟩ := readMem_answers m base effect s hs
  refine ⟨v, t, hread, ?_⟩
  rw [he, hnext, retire_eq_past hl, Bool.toNat, Bool.cond_eq_ite]

/-- An instruction that is `writeMem` on its operand form and value meets the statement of a write-class form. -/
theorem writeForm_of_writeMem {i : Instr} {bytes : List Byte} {m : MemMode} {base : Nat} {value : State → Byte}
    (hb : encode i = bytes) (hl : BitVec.ofNat 16 bytes.length = modeLength m)
    (he : ∀ s, exec i s = writeMem m base (value s) s) : WriteForm i bytes m base value := by
  refine ⟨hb, fun s hs => ?_⟩
  obtain ⟨t, hwrite, hnext⟩ := writeMem_answers m base (value s) s hs
  exact ⟨t, hwrite, by rw [he, hnext, retire_eq_past hl]⟩

end Sys2Proof.Machine

open Sys2Proof.Machine

/-- Settles O1: the three immediate forms are `readImm`, the others `readMem`, each with the write of its register as effect. -/
theorem loadsPutTheOperandInARegister : Obligations.LoadsPutTheOperandInARegister := by
  unfold Obligations.LoadsPutTheOperandInARegister
  rw [lo_eq_lowByte, hi_eq_highByte, loadA_eq_writeA, loadX_eq_writeX, loadY_eq_writeY]
  refine ⟨?ldaImm, ?_, ?_, ?_, ?_, ?_, ?_, ?_, ?ldxImm, ?_, ?_, ?_, ?_, ?ldyImm, ?_, ?_, ?_, ?_⟩
  case ldaImm | ldxImm | ldyImm => exact fun _ => immForm_of_readImm rfl rfl fun _ => rfl
  all_goals exact fun _ => readForm_of_readMem rfl rfl fun _ => rfl

/-- Settles O2: every store is `writeMem` of its register. -/
theorem storesWriteTheRegister : Obligations.StoresWriteTheRegister := by
  unfold Obligations.StoresWriteTheRegister
  rw [lo_eq_lowByte, hi_eq_highByte]
  refine ⟨?_, ?_, ?_, ?_, ?_, ?_, ?_, ?_, ?_, ?_, ?_, ?_, ?_⟩ <;> exact fun _ => writeForm_of_writeMem rfl rfl fun _ => rfl

/-- Settles O3: every transfer is `implied` on the write of its target register; that of TXS writes no flag. -/
theorem transfersCopyRegisters : Obligations.TransfersCopyRegisters := by
  unfold Obligations.TransfersCopyRegisters
  rw [loadA_eq_writeA, loadX_eq_writeX, loadY_eq_writeY]
  refine ⟨?_, ?_, ?_, ?_, ?_, ?_⟩ <;> exact impliedForm_of_implied rfl rfl fun _ => rfl
end

section
/-! SUPPORT. The statements' effects of arithmetic, compare, bit test, increment and decrement are the model's (42_arith_logic.md R180
to R196), and an instruction of the read-modify-write class has the form of its statement (40_addressing.md R144). -/

namespace Sys2Proof.Machine

open Sys2Proof.Claims

/-- A claim's digit of a byte is the byte's bit. -/
theorem bitOf_eq_getLsbD (k : Nat) (m : Byte) : bitOf k m = m.getLsbD k := by
  rw [bitOf, getLsbD_eq_digit]

/-- A byte is 0 when its number is (00_scope.md R8). -/
theorem decide_toNat_eq_zero (r : Byte) : decide (r.toNat = 0) = (r == 0) := by
  rw [beq_eq_decide, decide_eq_decide, ← BitVec.toNat_inj, BitVec.ofNat_eq_ofNat, BitVec.toNat_zero]

/-- The exact sum modulo 256 is the adder's result byte (42_arith_logic.md R180). -/
theorem ofNat_sum_eq_sumResult (a m : Byte) (c : Bool) :
    BitVec.ofNat 8 ((a.toNat + m.toNat + c.toNat) % 256) = sumResult a m c := by
  rw [← sumResult_toNat, BitVec.ofNat_toNat, BitVec.setWidth_eq]

/-- The sign-bit condition for V is the adder's overflow mask (42_arith_logic.md R180). -/
theorem signs_eq_sumOverflow (a m : Byte) (c : Bool) :
    decide (a.toNat / 128 = m.toNat / 128 ∧ a.toNat / 128 ≠ (sumResult a m c).toNat / 128) = sumOverflow a m c := by
  rw [sumOverflow, signs_eq_num]

/-- Adding with carry into A is ADC (42_arith_logic.md R181). -/
theorem addToA_eq_adc : addToA = adc := by
  funext m s
  simp only [addToA, ofNat_sum_eq_sumResult, signs_eq_sumOverflow, nz_eq_setNZ]
  rw [adc, addFlags, sumCarry, exactSum]

/-- 255 less a byte is its complement (42_arith_logic.md R182). -/
theorem ofNat_complement (m : Byte) : BitVec.ofNat 8 (255 - m.toNat) = ~~~m := by
  rw [← not_toNat, BitVec.ofNat_toNat, BitVec.setWidth_eq]

/-- Adding the complement is SBC (42_arith_logic.md R182). -/
theorem subFromA_eq_sbc : subFromA = sbc := by
  funext m s
  rw [subFromA, ofNat_complement, addToA_eq_adc, sbc]

/-- N of a compare is bit 7 of the wrapped difference (42_arith_logic.md R196). -/
theorem sub_getLsbD_seven (r m : Byte) : (r - m).getLsbD 7 = decide (128 ≤ (r.toNat + 256 - m.toNat) % 256) := by
  have hm : m.toNat < 256 := m.isLt
  have hsum : 2 ^ 8 - m.toNat + r.toNat = r.toNat + 256 - m.toNat := by omega
  rw [getLsbD_seven, BitVec.toNat_sub, hsum]

/-- The compare of a statement writes the model's compare flags (42_arith_logic.md R196). -/
theorem compared_eq_withP : compared = fun r m s => s.withP (compareFlags s.p r m) := by
  funext r m s
  rw [compared, compareFlags, sub_getLsbD_seven, beq_eq_decide, State.withP]

/-- The bit test of a statement is BIT (42_arith_logic.md R189). -/
theorem bitTested_eq_bit : bitTested = bit := by
  funext m s
  rw [bitTested, bitOf_eq_getLsbD, bitOf_eq_getLsbD, decide_toNat_eq_zero, bit, bitFlags, State.withP]

/-- A byte plus 1 modulo 256 is INC's (42_arith_logic.md R190). -/
theorem incremented_eq_increment : incremented = increment := by
  funext m p
  have hr : BitVec.ofNat 8 ((m.toNat + 1) % 256) = m + 1 :=
    BitVec.eq_of_toNat_eq (by rw [BitVec.toNat_ofNat, Nat.mod_mod, BitVec.toNat_add]; rfl)
  rw [incremented, hr, nz_eq_setNZ, increment]

/-- A byte plus 255 modulo 256 is DEC's (42_arith_logic.md R191). -/
theorem decremented_eq_decrement : decremented = decrement := by
  funext m p
  have hr : BitVec.ofNat 8 ((m.toNat + 255) % 256) = m - 1 :=
    BitVec.eq_of_toNat_eq (by rw [BitVec.toNat_ofNat, Nat.mod_mod, BitVec.toNat_sub, Nat.add_comm]; rfl)
  rw [decremented, hr, nz_eq_setNZ, decrement]

/-- An instruction that is `modifyMem` on its operand form and byte operation meets the statement of a read-modify-write form. -/
theorem modifyForm_of_modifyMem {i : Instr} {bytes : List Byte} {m : MemMode} {base : Nat} {f : Byte → Status → Byte × Status}
    (hb : encode i = bytes) (hl : BitVec.ofNat 16 bytes.length = modeLength m)
    (he : ∀ s, exec i s = modifyMem m base f s) : ModifyForm i bytes m base f := by
  refine ⟨hb, fun s hs => ?_⟩
  obtain ⟨v, t, u, hread, hwrite, hnext⟩ := modifyMem_answers m base f s hs
  exact ⟨v, t, u, hread, hwrite, by rw [he, hnext, retire_eq_past hl, State.withP]⟩

end Sys2Proof.Machine

open Sys2Proof.Machine

/-- Settles O4: the two immediate forms are `readImm`, the others `readMem`, with the adder on the operand or on its complement. -/
theorem adcAndSbcAddWithCarry : Obligations.AdcAndSbcAddWithCarry := by
  unfold Obligations.AdcAndSbcAddWithCarry
  rw [lo_eq_lowByte, hi_eq_highByte, addToA_eq_adc, subFromA_eq_sbc]
  refine ⟨?adcImm, ?_, ?_, ?_, ?_, ?_, ?_, ?_, ?sbcImm, ?_, ?_, ?_, ?_, ?_, ?_, ?_⟩
  case adcImm | sbcImm => exact fun _ => immForm_of_readImm rfl rfl fun _ => rfl
  all_goals exact fun _ => readForm_of_readMem rfl rfl fun _ => rfl

/-- Settles O5: each logic instruction is its access class with a write of A, the bitwise result, as effect. -/
theorem logicCombinesIntoA : Obligations.LogicCombinesIntoA := by
  unfold Obligations.LogicCombinesIntoA
  rw [lo_eq_lowByte, hi_eq_highByte, loadA_eq_writeA]
  refine ⟨?andImm, ?_, ?_, ?_, ?_, ?_, ?_, ?_, ?oraImm, ?_, ?_, ?_, ?_, ?_, ?_, ?_, ?eorImm, ?_, ?_, ?_, ?_, ?_, ?_, ?_⟩
  case andImm | oraImm | eorImm => exact fun _ => immForm_of_readImm rfl rfl fun _ => rfl
  all_goals exact fun _ => readForm_of_readMem rfl rfl fun _ => rfl

/-- Settles O6: each compare writes the compare flags of its register, BIT those of the bit test, and neither anything else. -/
theorem comparesAndBitWriteFlagsOnly : Obligations.ComparesAndBitWriteFlagsOnly := by
  unfold Obligations.ComparesAndBitWriteFlagsOnly
  rw [lo_eq_lowByte, hi_eq_highByte, compared_eq_withP, bitTested_eq_bit]
  refine ⟨?cmpImm, ?_, ?_, ?_, ?_, ?_, ?_, ?_, ?cpxImm, ?_, ?_, ?cpyImm, ?_, ?_, ?_, ?_⟩
  case cmpImm | cpxImm | cpyImm => exact fun _ => immForm_of_readImm rfl rfl fun _ => rfl
  all_goals exact fun _ => readForm_of_readMem rfl rfl fun _ => rfl

/-- Settles O7: each form is `modifyMem` of the byte plus or minus 1. -/
theorem incDecChangeMemory : Obligations.IncDecChangeMemory := by
  unfold Obligations.IncDecChangeMemory
  rw [lo_eq_lowByte, hi_eq_highByte, incremented_eq_increment, decremented_eq_decrement]
  refine ⟨?_, ?_, ?_, ?_, ?_, ?_, ?_, ?_⟩ <;> exact fun _ => modifyForm_of_modifyMem rfl rfl fun _ => rfl

/-- Settles O8: each is `implied` on the write of its index register plus or minus 1. -/
theorem incDecChangeIndexRegisters : Obligations.IncDecChangeIndexRegisters := by
  unfold Obligations.IncDecChangeIndexRegisters
  rw [loadX_eq_writeX, loadY_eq_writeY, incremented_eq_increment, decremented_eq_decrement]
  refine ⟨?_, ?_, ?_, ?_⟩ <;> exact impliedForm_of_implied rfl rfl fun _ => rfl
end

section
/-! SUPPORT. The statements' shifts and rotates are the model's (43_shift_rotate.md R211 to R214), and an instruction of the
accumulator class has the form of its statement (43_shift_rotate.md R210). -/

namespace Sys2Proof.Machine

open Sys2Proof.Claims

/-- A result given by its number and a carry given by a digit are the model's byte and bit, with the same N and Z
(43_shift_rotate.md R210). -/
theorem resultAndCarry_eq {n : Nat} {r : Byte} (v : Byte) (k : Nat) (p : Status) (hr : r.toNat = n) :
    (BitVec.ofNat 8 n, nz { p with c := bitOf k v } (BitVec.ofNat 8 n)) = (r, setNZ { p with c := v.getLsbD k } r) := by
  rw [← hr, BitVec.ofNat_toNat, BitVec.setWidth_eq, nz_eq_setNZ, bitOf_eq_getLsbD]

/-- The doubled byte modulo 256 is ASL's, with the old bit 7 as carry (43_shift_rotate.md R211). -/
theorem asl_eq_shiftLeft : asl = shiftLeft :=
  funext₂ fun v p => resultAndCarry_eq v 7 p (shiftLeft_toNat v p)

/-- The halved byte is LSR's, with the old bit 0 as carry (43_shift_rotate.md R212). -/
theorem lsr_eq_shiftRight : lsr = shiftRight :=
  funext₂ fun v p => resultAndCarry_eq v 0 p (shiftRight_toNat v p)

/-- The doubled byte plus the old carry modulo 256 is ROL's (43_shift_rotate.md R213). -/
theorem rol_eq_rotateLeft : rol = rotateLeft :=
  funext₂ fun v p => resultAndCarry_eq v 7 p (rotateLeft_toNat v p)

/-- The halved byte plus 128 for the old carry is ROR's (43_shift_rotate.md R214). -/
theorem ror_eq_rotateRight : ror = rotateRight :=
  funext₂ fun v p => resultAndCarry_eq v 0 p (rotateRight_toNat v p)

/-- An instruction that is `modifyAcc` on its byte operation meets the statement of an accumulator form. -/
theorem accForm_of_modifyAcc {i : Instr} {bytes : List Byte} {f : Byte → Status → Byte × Status} (hb : encode i = bytes)
    (hl : BitVec.ofNat 16 bytes.length = 1) (he : ∀ s, exec i s = modifyAcc f s) : AccForm i bytes f :=
  ⟨hb, fun s => by rw [he, modifyAcc, retire_eq_past hl]⟩

end Sys2Proof.Machine

open Sys2Proof.Machine

/-- Settles O9: the accumulator forms are `modifyAcc`, the memory forms `modifyMem`, each of the model's own shift or rotate. -/
theorem shiftsAndRotatesMoveOneBit : Obligations.ShiftsAndRotatesMoveOneBit := by
  unfold Obligations.ShiftsAndRotatesMoveOneBit
  rw [lo_eq_lowByte, hi_eq_highByte, asl_eq_shiftLeft, lsr_eq_shiftRight, rol_eq_rotateLeft, ror_eq_rotateRight]
  refine ⟨?aslAcc, ?_, ?_, ?_, ?_, ?lsrAcc, ?_, ?_, ?_, ?_, ?rolAcc, ?_, ?_, ?_, ?_, ?rorAcc, ?_, ?_, ?_, ?_⟩
  case aslAcc | lsrAcc | rolAcc | rorAcc => exact accForm_of_modifyAcc rfl rfl fun _ => rfl
  all_goals exact fun _ => modifyForm_of_modifyMem rfl rfl fun _ => rfl
end

section
/-! SUPPORT. The statements' stack addresses and status bytes are the model's (00_scope.md R9, 10_state.md R35, R36), and an
instruction that pushes or pulls one byte makes the bus access of its statement (44_stack.md R220 to R223). -/

namespace Sys2Proof.Machine

open Sys2Proof.Claims

/-- The claims' stack address is the model's (00_scope.md R9). -/
theorem stackAddr_eq_or (sp : Byte) : stackAddr sp = 0x0100#16 ||| sp.setWidth 16 := by
  rw [stackAddr, ← stackAddress_toNat, BitVec.ofNat_toNat, BitVec.setWidth_eq]

/-- The claims' packed status byte is the model's (10_state.md R35). -/
theorem packed_eq_pack : packed = pack := by
  funext p b
  rw [packed, ← pack_toNat, BitVec.ofNat_toNat, BitVec.setWidth_eq]

/-- The claims' flags of a pulled byte are the model's (10_state.md R36). -/
theorem unpacked_eq_unpack : unpacked = unpack := by
  funext m
  simp only [unpacked, bitOf_eq_getLsbD, unpack]

/-- An `implied` instruction that pushes a byte makes one bus write at the stack address and lowers SP by 1. -/
theorem push_of_implied {i : Instr} {bytes : List Byte} {cost : Nat} {value : State → Byte}
    (hl : BitVec.ofNat 16 bytes.length = 1) (he : ∀ s, exec i s = implied cost (fun t => t.push (value t)) s) (s : State) :
    ∃ t, memWrite (stackAddr s.sp) (value s) s = .ok t ∧ exec i s = .next (past s bytes cost { t with sp := s.sp - 1 }) := by
  rw [stackAddr_eq_or]
  exact ⟨_, push_memWrite s (value s), by rw [he, implied, retire_eq_past hl, State.push]⟩

/-- An `implied` instruction that pulls a byte raises SP by 1 and acts on the byte the bus answers at the new stack address. -/
theorem pull_of_implied {i : Instr} {bytes : List Byte} {cost : Nat} {effect : Byte → State → State}
    (hl : BitVec.ofNat 16 bytes.length = 1) (he : ∀ s, exec i s = implied cost (fun t => effect t.top t.popped) s) (s : State) :
    ∃ m, memRead (stackAddr (s.sp + 1)) s = .ok (m, s) ∧
      exec i s = .next (past s bytes cost (effect m { s with sp := s.sp + 1 })) := by
  rw [stackAddr_eq_or]
  exact ⟨_, top_memRead s, by rw [he, implied, retire_eq_past hl, State.popped]⟩

end Sys2Proof.Machine

open Sys2Proof.Machine

/-- Settles O10: PHA pushes A and PHP the packed flags; PLA pulls into A with its flags and PLP into the flags. -/
theorem pushesAndPullsUseTheStackPage : Obligations.PushesAndPullsUseTheStackPage := by
  unfold Obligations.PushesAndPullsUseTheStackPage
  rw [packed_eq_pack, unpacked_eq_unpack, loadA_eq_writeA]
  refine ⟨⟨rfl, ?pha⟩, ⟨rfl, ?php⟩, ⟨rfl, ?pla⟩, ⟨rfl, ?plp⟩⟩
  case pha => exact push_of_implied (value := State.a) rfl fun _ => rfl
  case php => exact push_of_implied (value := fun s => pack s.p true) rfl fun _ => rfl
  case pla => exact pull_of_implied (effect := State.writeA) rfl fun _ => rfl
  case plp => exact pull_of_implied (effect := fun m => State.withP (unpack m)) rfl fun _ => rfl
end

section
/-! SUPPORT. The stack over several bytes: the bus writes of a pushed word, the bus reads of the second and third pull, and what a
return from an interrupt does (00_scope.md R9, 20_memory.md R71, 45_control.md R243). The pointer of the indirect jump is two bus
reads (40_addressing.md R140). -/

namespace Sys2Proof.Machine

open Sys2Proof.Claims

/-- Two pulls raise SP by 2 (00_scope.md R9). -/
theorem State.popped_popped (s : State) : s.popped.popped = { s with sp := s.sp + 2 } := by
  rw [State.popped, State.popped, BitVec.add_assoc]
  rfl

/-- A bus read at a stack address answers the stack byte and changes nothing (20_memory.md R69). -/
theorem stackAddr_memRead (s : State) (sp : Byte) : memRead (stackAddr sp) s = .ok (s.ram.get (stackIndex sp), s) := by
  rw [stackAddr_eq_or, stack_memRead]

/-- The second of two pulls reads the bus at SP + 2 (00_scope.md R9; log 13). -/
theorem popped_top_memRead (s : State) : memRead (stackAddr (s.sp + 2)) s = .ok (s.popped.top, s) := by
  rw [stackAddr_memRead, State.top, State.popped, BitVec.add_assoc]
  rfl

/-- The third of three pulls reads the bus at SP + 3 (00_scope.md R9; log 13). -/
theorem popped_popped_top_memRead (s : State) : memRead (stackAddr (s.sp + 3)) s = .ok (s.popped.popped.top, s) := by
  rw [stackAddr_memRead, State.popped_popped, State.top, BitVec.add_assoc]
  rfl

/-- A pushed word lowers SP by 2 and changes nothing else but RAM (20_memory.md R71). -/
theorem State.pushWord_eq (v : Word) (s : State) : s.pushWord v = { s with ram := (s.pushWord v).ram, sp := s.sp - 2 } := by
  have hsp : s.sp - 1 - 1 = s.sp - 2 := by bv_omega
  rw [← hsp]
  rfl

/-- A pushed word is two bus writes down the stack, of its high byte and then of its low byte (20_memory.md R71; log 13). -/
theorem pushWord_memWrite (s : State) (v : Word) :
    ∃ t, memWrite (stackAddr s.sp) (highByte v) s = .ok t ∧
      memWrite (stackAddr (s.sp - 1)) (lowByte v) t = .ok { s with ram := (s.pushWord v).ram } := by
  rw [stackAddr_eq_or, stackAddr_eq_or]
  exact ⟨_, stack_memWrite s s.sp (highByte v), stack_memWrite _ (s.sp - 1) (lowByte v)⟩

/-- A return from an interrupt writes the flags, SP, PC and the cost, and nothing else (45_control.md R243). -/
theorem returnFromInterrupt_eq (cost : Nat) (s : State) : returnFromInterrupt cost s =
    { s with p := unpack s.top, sp := s.sp + 3, pc := wordOf s.popped.top s.popped.popped.top, cyclesRemaining := cost } := by
  have hsp : s.sp + 1 + 1 + 1 = s.sp + 3 := by bv_omega
  rw [← hsp]
  rfl

/-- Bus reads do not change which addresses have a meaning (93_implementation_defined.md U4). -/
theorem ReadFrom.readable_eq {s t : State} (h : ReadFrom s t) (a : Word) : readable a t = readable a s := by
  obtain ⟨vb, w, v, rb, h0, h1, n, rfl, -⟩ := h.touched
  rfl

/-- The pointer read of the indirect jump answers when both bytes may be read (40_addressing.md R140). -/
theorem readPageWord_answers {a : Word} {s : State} (hlo : readable a s = true) (hhi : readable (pageNext a) s = true) :
    ∃ vlo vhi t u, memRead a s = .ok (vlo, t) ∧ memRead (pageNext a) t = .ok (vhi, u) ∧
      readPageWord a s = .ok (wordOf vlo vhi, u) := by
  obtain ⟨vlo, t, ht⟩ := memRead_answers hlo
  rw [← (memRead_readFrom ht).readable_eq] at hhi
  obtain ⟨vhi, u, hu⟩ := memRead_answers hhi
  exact ⟨vlo, vhi, t, u, ht, hu, by rw [readPageWord, ht]; simp only [hu]⟩

/-- The claims' second pointer address is the model's (40_addressing.md R140). -/
theorem word_lo_hi_eq_pageNext (a : Word) : word (lo (a + 1)) (hi a) = pageNext a := by
  rw [word_eq_wordOf, lo_eq_lowByte, hi_eq_highByte, pageNext_eq]

/-- 6C JMP (a) retires at the word its pointer read answers (45_control.md R230). -/
theorem exec_jmpInd {a target : Word} {s t : State} (h : readPageWord a s = .ok (target, t)) :
    exec (.jmpInd a) s = .next (t.retire target 5) := by
  change execJmpInd a s = _
  rw [execJmpInd, h]

/-- 20 JSR a (45_control.md R231). -/
theorem exec_jsrAbs (a : Word) (s : State) : exec (.jsrAbs a) s = .next ((s.pushWord (s.pc + 2)).retire a 6) := rfl

/-- 60 RTS (45_control.md R232). -/
theorem exec_rts (s : State) : exec .rts s = .next (s.popped.popped.retire (wordOf s.top s.popped.top + 1) 6) := rfl

/-- 40 RTI (45_control.md R243). -/
theorem exec_rti (s : State) : exec .rti s = .next (returnFromInterrupt 6 s) := rfl

end Sys2Proof.Machine

open Sys2Proof.Machine

/-- Settles O11: JMP abs retires at its operand, JMP ind at the word its pointer read answers. -/
theorem jumpsSetThePc : Obligations.JumpsSetThePc := by
  unfold Obligations.JumpsSetThePc
  simp only [word_lo_hi_eq_pageNext]
  rw [lo_eq_lowByte, hi_eq_highByte]
  refine ⟨fun a => ⟨rfl, fun s => rfl⟩, fun a => ⟨rfl, fun s hlo hhi => ?ind⟩⟩
  case ind =>
    obtain ⟨vlo, vhi, t, u, ht, hu, hword⟩ := readPageWord_answers hlo hhi
    refine ⟨vlo, vhi, t, u, ht, hu, ?_⟩
    rw [exec_jmpInd hword, word_eq_wordOf, State.retire]

/-- Settles O12: JSR pushes pc0 + 2 as a word and retires at its operand; RTS pulls a word and retires at it plus 1. -/
theorem jsrPushesAndRtsReturns : Obligations.JsrPushesAndRtsReturns := by
  unfold Obligations.JsrPushesAndRtsReturns
  rw [lo_eq_lowByte, hi_eq_highByte]
  refine ⟨fun a => ⟨rfl, fun s => ?jsr⟩, ⟨rfl, fun s => ?rts⟩⟩
  case jsr =>
    obtain ⟨t, hhi, hlo⟩ := pushWord_memWrite s (s.pc + 2)
    refine ⟨t, _, hhi, hlo, ?_⟩
    rw [exec_jsrAbs, State.pushWord_eq, State.retire]
  case rts =>
    refine ⟨s.top, s.popped.top, stackAddr_memRead s (s.sp + 1), popped_top_memRead s, ?_⟩
    rw [exec_rts, State.popped_popped, word_eq_wordOf, State.retire]

/-- Settles O15: RTI is the shared return from an interrupt, whose three pulls are bus reads at SP + 1, SP + 2 and SP + 3. -/
theorem rtiRestoresStatusAndPc : Obligations.RtiRestoresStatusAndPc := by
  unfold Obligations.RtiRestoresStatusAndPc
  rw [unpacked_eq_unpack]
  refine ⟨rfl, fun s => ⟨s.top, s.popped.top, s.popped.popped.top, stackAddr_memRead s (s.sp + 1), popped_top_memRead s,
    popped_popped_top_memRead s, ?_⟩⟩
  rw [exec_rti, returnFromInterrupt_eq, word_eq_wordOf]
end

section
/-! SUPPORT. The flag instructions and NOP are instructions of the `implied` class (46_flags_misc.md R260 to R267). -/

open Sys2Proof.Machine

/-- Settles O16: each flag instruction is `implied` on the write of its own flag, and NOP on no change. -/
theorem flagInstructionsWriteOneFlag : Obligations.FlagInstructionsWriteOneFlag := by
  unfold Obligations.FlagInstructionsWriteOneFlag
  refine ⟨?_, ?_, ?_, ?_, ?_, ?_, ?_, ?_⟩ <;> exact impliedForm_of_implied rfl rfl fun _ => rfl
end

section
/-! SUPPORT. Writes and data reads through the PPU's ports: the port an address reaches, the bits each scroll and address write
fills in `t`, and what a data-port access does to `v` and the read buffer (60_exceptions.md R330 to R332, R336 to R338, R340). -/

namespace Sys2Proof.Machine

open Sys2Proof.Claims

/-- A bus read of a port's address reads the port (20_memory.md R63). -/
theorem memRead_atPort {k : Nat} {a : Word} (h : atPort k a) (s : State) : memRead a s = portRead k s := by
  obtain ⟨hlo, hhi, rfl⟩ := h
  rw [memRead, if_neg (by omega), if_pos (by omega)]

/-- A bus write of a port's address writes the port (20_memory.md R64). -/
theorem memWrite_atPort {k : Nat} {a : Word} (h : atPort k a) (d : Byte) (s : State) : memWrite a d s = portWrite k d s := by
  obtain ⟨hlo, hhi, rfl⟩ := h
  rw [memWrite, if_neg (by omega), if_pos (by omega)]

/-- A port of the warm-up ignores a write (60_exceptions.md R340). -/
theorem portWrite_ignored {k : Nat} (hk : warmupPort k = true) (d : Byte) {s : State} (hs : s.cyclesTotal < s.warmupCycles) :
    portWrite k d s = .ok s := by
  unfold portWrite
  exact if_pos ⟨hk, hs⟩

/-- A write of the OAM data port, at any time (60_exceptions.md R335). -/
theorem portWrite_oamData (d : Byte) (s : State) : portWrite 4 d s =
    if s.ppu.rendering then .error (.portWhileRendering 4) else .ok (s.withPpu (s.ppu.oamDataWrite d)) := rfl

/-- A write of the data port, at any time (60_exceptions.md R338). -/
theorem portWrite_data (d : Byte) (s : State) : portWrite 7 d s =
    if s.ppu.rendering then .error (.portWhileRendering 7) else .ok (dataWrite d s) := rfl

/-- A write of the scroll port after the warm-up (60_exceptions.md R336). -/
theorem portWrite_scroll (d : Byte) {s : State} (hs : s.warmupCycles ≤ s.cyclesTotal) :
    portWrite 5 d s = .ok (s.withPpu (s.ppu.scrollWrite d)) := by
  rw [portWrite, if_neg (by omega)]

/-- A write of the address port after the warm-up (60_exceptions.md R337). -/
theorem portWrite_addr (d : Byte) {s : State} (hs : s.warmupCycles ≤ s.cyclesTotal) :
    portWrite 6 d s = .ok (s.withPpu (s.ppu.addrWrite d)) := by
  rw [portWrite, if_neg (by omega)]

/-- A data write does not look at the warm-up. -/
theorem dataWrite_withWarmupCycles (d : Byte) (s : State) (n : Nat) :
    dataWrite d { s with warmupCycles := n } = { dataWrite d s with warmupCycles := n } := by
  simp only [dataWrite, ppuMemWrite]
  split
  · split <;> rfl
  · split <;> rfl

/-- A write of a port outside the warm-up's reach does not depend on the length of the warm-up (60_exceptions.md R340). -/
theorem portWrite_withWarmupCycles {k : Nat} (hk : k = 3 ∨ k = 4 ∨ k = 7) (d : Byte) (s : State) (n : Nat) :
    portWrite k d { s with warmupCycles := n } = (portWrite k d s).map fun t => { t with warmupCycles := n } := by
  obtain rfl | rfl | rfl := hk
  · rfl
  · simp only [portWrite_oamData]
    split <;> rfl
  · simp only [portWrite_data, dataWrite_withWarmupCycles]
    split <;> rfl

/-- The number of two bit vectors side by side. -/
theorem append_toNat {m n : Nat} (x : BitVec m) (y : BitVec n) : (x ++ y).toNat = x.toNat * 2 ^ n + y.toNat := by
  rw [BitVec.toNat_append, ← Nat.shiftLeft_add_eq_or_of_lt y.isLt, Nat.shiftLeft_eq]

/-- The first scroll write: `t` keeps its bits 14 to 5 over the byte's upper five (60_exceptions.md R336). -/
theorem scrollWrite_first {p : Ppu} (hw : p.w = false) (d : Byte) : p.scrollWrite d =
    { p with t := p.t.extractLsb' 5 10 ++ d.extractLsb' 3 5, fineX := d.setWidth 3, w := true } := by
  have ht : (p.t &&& ~~~0x001F#15) ||| (d >>> 3).setWidth 15 = p.t.extractLsb' 5 10 ++ d.extractLsb' 3 5 := by
    apply BitVec.eq_of_getLsbD_eq
    intro i hi
    rw [BitVec.getLsbD_append]
    interval_cases i <;> simp
  rw [Ppu.scrollWrite, hw, if_neg Bool.false_ne_true, ht]

/-- The second scroll write: `t` keeps its bits 11, 10 and 4 to 0 and takes the byte's lower three and upper five around them
(60_exceptions.md R336). -/
theorem scrollWrite_second {p : Ppu} (hw : p.w = true) (d : Byte) : p.scrollWrite d =
    { p with t := d.extractLsb' 0 3 ++ (p.t.extractLsb' 10 2 ++ (d.extractLsb' 3 5 ++ p.t.extractLsb' 0 5)), w := false } := by
  have ht : (p.t &&& ~~~0x73E0#15) ||| ((d &&& 7).setWidth 15 <<< 12) ||| ((d &&& 0xF8).setWidth 15 <<< 2) =
      d.extractLsb' 0 3 ++ (p.t.extractLsb' 10 2 ++ (d.extractLsb' 3 5 ++ p.t.extractLsb' 0 5)) := by
    apply BitVec.eq_of_getLsbD_eq
    intro i hi
    rw [BitVec.getLsbD_append, BitVec.getLsbD_append, BitVec.getLsbD_append]
    interval_cases i <;> simp
  rw [Ppu.scrollWrite, hw, if_pos rfl, ht]

/-- The first address write: a clear bit 14 and the byte's lower six over the low byte of `t` (60_exceptions.md R337). -/
theorem addrWrite_first {p : Ppu} (hw : p.w = false) (d : Byte) : p.addrWrite d =
    { p with t := 0#1 ++ (d.extractLsb' 0 6 ++ p.t.extractLsb' 0 8), w := true } := by
  have ht : (p.t &&& 0x00FF#15) ||| ((d &&& 0x3F).setWidth 15 <<< 8) = 0#1 ++ (d.extractLsb' 0 6 ++ p.t.extractLsb' 0 8) := by
    apply BitVec.eq_of_getLsbD_eq
    intro i hi
    rw [BitVec.getLsbD_append, BitVec.getLsbD_append]
    interval_cases i <;> simp
  rw [Ppu.addrWrite, hw, if_neg Bool.false_ne_true, ht]

/-- The second address write: the byte under the upper seven bits of `t`, and `v` takes the result (60_exceptions.md R337). -/
theorem addrWrite_second {p : Ppu} (hw : p.w = true) (d : Byte) : p.addrWrite d =
    { p with t := p.t.extractLsb' 8 7 ++ d, v := p.t.extractLsb' 8 7 ++ d, w := false } := by
  have ht : (p.t &&& 0x7F00#15) ||| d.setWidth 15 = p.t.extractLsb' 8 7 ++ d := by
    apply BitVec.eq_of_getLsbD_eq
    intro i hi
    rw [BitVec.getLsbD_append]
    interval_cases i <;> simp
  rw [Ppu.addrWrite, hw, if_pos rfl]
  simp only [ht]

/-- A read of the data port (60_exceptions.md R338). -/
theorem portRead_data (s : State) : portRead 7 s =
    if s.ppu.rendering then .error (.portWhileRendering 7) else .ok (dataRead s) := rfl

/-- The statements' rendering is the model's (93_implementation_defined.md U4). -/
theorem renders_iff_rendering (s : State) : renders s ↔ s.ppu.rendering = true := by
  rw [Ppu.rendering_iff, renders, bitOf_eq_getLsbD, bitOf_eq_getLsbD]

/-- A data-port access moves `v` on by 1 or 32 modulo 2^15 (60_exceptions.md R338). -/
theorem Ppu.advance_eq (p : Ppu) :
    p.advance = { p with v := BitVec.ofNat 15 (p.v.toNat + if bitOf 2 p.ctrl then 32 else 1) } := by
  have hv : p.v + (if p.ctrl.getLsbD 2 then 32 else 1) = BitVec.ofNat 15 (p.v.toNat + if p.ctrl.getLsbD 2 then 32 else 1) := by
    split <;> rw [BitVec.ofNat_add, BitVec.ofNat_toNat, BitVec.setWidth_eq] <;> rfl
  rw [bitOf_eq_getLsbD, ← hv, Ppu.advance]

/-- The nametable byte under a palette address is $1000 lower (60_exceptions.md R338). -/
theorem and_eq_sub_of_palette {a : Nat} (hlo : 0x3F00 ≤ a) (hhi : a < 0x4000) : a &&& 0x2FFF = a - 0x1000 := by
  have h : ∀ r < 256, (0x3F00 + r) &&& 0x2FFF = 0x2F00 + r := by decide +kernel
  have ha := h (a - 0x3F00) (by omega)
  rw [Nat.add_sub_cancel' hlo] at ha
  omega

/-- A data read below the palette answers the read buffer and refills it (60_exceptions.md R338). -/
theorem dataRead_below {s : State} (h : s.ppu.dataAddr < 0x3F00) : dataRead s =
    (s.ppu.readBuffer, { s with ppu := { s.ppu with
      readBuffer := ppuMemRead s.ppu.dataAddr s
      v := BitVec.ofNat 15 (s.ppu.v.toNat + if bitOf 2 s.ppu.ctrl then 32 else 1) } }) := by
  rw [dataRead, if_neg (by omega), Ppu.advance_eq, State.withPpu]

/-- A data read of the palette answers at once and refills the buffer from the nametable under it (60_exceptions.md R338). -/
theorem dataRead_palette {s : State} (h : 0x3F00 ≤ s.ppu.dataAddr) : dataRead s =
    (ppuMemRead s.ppu.dataAddr s, { s with ppu := { s.ppu with
      readBuffer := ppuMemRead (s.ppu.dataAddr - 0x1000) s
      v := BitVec.ofNat 15 (s.ppu.v.toNat + if bitOf 2 s.ppu.ctrl then 32 else 1) } }) := by
  have ha : s.ppu.dataAddr &&& 0x2FFF = s.ppu.dataAddr - 0x1000 := and_eq_sub_of_palette h (Nat.mod_lt _ (by decide))
  rw [dataRead, if_pos h, ha, Ppu.advance_eq, State.withPpu]

/-- A write of PPU memory leaves the registers that move `v` alone (60_exceptions.md R339). -/
theorem ppuMemWrite_v_ctrl (a : Nat) (d : Byte) (s : State) :
    (ppuMemWrite a d s).ppu.v = s.ppu.v ∧ (ppuMemWrite a d s).ppu.ctrl = s.ppu.ctrl := by
  unfold ppuMemWrite
  split
  · split <;> exact ⟨rfl, rfl⟩
  · split <;> exact ⟨rfl, rfl⟩

/-- A data write stores at the address `v` gives and then moves `v` on (60_exceptions.md R338). -/
theorem dataWrite_eq (d : Byte) (s : State) : dataWrite d s =
    (ppuMemWrite s.ppu.dataAddr d s).withPpu { (ppuMemWrite s.ppu.dataAddr d s).ppu with
      v := BitVec.ofNat 15 (s.ppu.v.toNat + if bitOf 2 s.ppu.ctrl then 32 else 1) } := by
  obtain ⟨hv, hctrl⟩ := ppuMemWrite_v_ctrl s.ppu.dataAddr d s
  rw [dataWrite, Ppu.advance_eq, ← hv, ← hctrl]

end Sys2Proof.Machine

open Sys2Proof.Machine Sys2Proof.Claims

/-- Settles O24: ports 0, 1, 5 and 6 are the warm-up's, and the meanings of the writes to ports 3, 4 and 7 do not name it. -/
theorem warmupIgnoresFourPorts : Obligations.WarmupIgnoresFourPorts := by
  refine ⟨fun s a d hlo hhi hs => ?_, fun s => ⟨rfl, rfl⟩⟩
  have hport : atPort (a.toNat % 8) a := ⟨hlo, hhi, rfl⟩
  simp only [memWrite_atPort hport]
  refine ⟨fun hk => portWrite_ignored ?_ d hs, fun hk n => ?_⟩
  · rcases hk with hk | hk | hk | hk <;> rw [hk] <;> rfl
  · rw [portWrite_withWarmupCycles hk]
    cases portWrite (a.toNat % 8) d s <;> rfl

/-- Settles O26: each write lays the byte's bits beside those it keeps of `t`. -/
theorem scrollAndAddressTakeTwoWrites : Obligations.ScrollAndAddressTakeTwoWrites := by
  intro s d hs
  have hd := d.isLt
  have ht := s.ppu.t.isLt
  have hx : d.setWidth 3 = BitVec.ofNat 3 (d.toNat % 8) := by
    apply BitVec.eq_of_toNat_eq
    rw [BitVec.toNat_setWidth, BitVec.toNat_ofNat, Nat.mod_mod]
  refine ⟨fun a ha => ⟨s.ppu.scrollWrite d, by rw [memWrite_atPort ha, portWrite_scroll d hs], fun hw => ?_, fun hw => ?_⟩,
    fun a ha => ⟨s.ppu.addrWrite d, by rw [memWrite_atPort ha, portWrite_addr d hs], fun hw => ?_, fun hw => ?_⟩⟩
  · refine ⟨_, by rw [scrollWrite_first hw, hx], ?_⟩
    simp only [append_toNat, BitVec.extractLsb'_toNat, Nat.shiftRight_eq_div_pow]
    omega
  · refine ⟨_, by rw [scrollWrite_second hw], ?_⟩
    simp only [append_toNat, BitVec.extractLsb'_toNat, Nat.shiftRight_eq_div_pow]
    omega
  · refine ⟨_, by rw [addrWrite_first hw], ?_⟩
    simp only [append_toNat, BitVec.extractLsb'_toNat, Nat.shiftRight_eq_div_pow, BitVec.toNat_zero]
    omega
  · refine ⟨_, by rw [addrWrite_second hw], ?_⟩
    simp only [append_toNat, BitVec.extractLsb'_toNat, Nat.shiftRight_eq_div_pow]
    omega

/-- Settles O27: the accesses are refused where the PPU renders; elsewhere a read is `dataRead`, by its two cases, and a write is
`dataWrite`. -/
theorem dataPortDelaysReadsAndAdvances : Obligations.DataPortDelaysReadsAndAdvances := by
  intro s d q hq
  have ha : s.ppu.v.toNat % 16384 = s.ppu.dataAddr := rfl
  rw [memRead_atPort hq, memWrite_atPort hq, portRead_data, portWrite_data, renders_iff_rendering, ha]
  refine ⟨fun hr => ⟨if_pos hr, if_pos hr⟩, fun hr => ?_⟩
  rw [if_neg hr, if_neg hr]
  exact ⟨fun hlo => by rw [dataRead_below hlo], fun hhi => by rw [dataRead_palette hhi], by rw [dataWrite_eq]⟩
end

section
/-! SUPPORT. PPU memory by its cells: which of the three memories a 14-bit address reads and writes, and at which index
(60_exceptions.md R339). -/

namespace Sys2Proof.Machine

open Sys2Proof.Claims

/-- The memories that `ppuCell` numbers: 0 the pattern data, 1 VRAM, 2 the palette (60_exceptions.md R339). -/
def ppuMemory (s : State) : Nat → Memory
  | 0 => s.cart.chr
  | 1 => s.ppu.vram
  | 2 => s.ppu.palette
  | _ => []

/-- The cell of a pattern address. -/
theorem ppuCell_pattern {a : Nat} (h : a < 0x2000) (s : State) : ppuCell s a = (0, a % s.cart.pattern.length) := if_pos h

/-- The cell of a nametable address. -/
theorem ppuCell_nametable {a : Nat} (hlo : 0x2000 ≤ a) (hhi : a < 0x3F00) (s : State) :
    ppuCell s a = (1, nametableIndex s.cart.mirroring a) := by
  rw [ppuCell, if_neg (by omega), if_pos hhi]
  cases s.cart.mirroring <;> rfl

/-- The cell of a palette address. -/
theorem ppuCell_palette {a : Nat} (h : 0x3F00 ≤ a) (s : State) : ppuCell s a = (2, paletteIndex a) := by
  rw [ppuCell, if_neg (by omega), if_neg (by omega), paletteIndex]

/-- A read of PPU memory answers the byte of its cell. -/
theorem ppuMemRead_eq (a : Nat) (s : State) : ppuMemRead a s = (ppuMemory s (ppuCell s a).1).get (ppuCell s a).2 := by
  unfold ppuMemRead
  split
  · next h => rw [ppuCell_pattern h, ppuMemory]
  · split
    · next hlo hhi => rw [ppuCell_nametable (by omega) hhi, ppuMemory]
    · next h => rw [ppuCell_palette (by omega), ppuMemory]

/-- A write to pattern ROM is ignored. -/
theorem ppuMemWrite_rom {a : Nat} {s : State} (ha : a < 0x2000) (hs : s.cart.pattern ≠ .ram) (d : Byte) :
    ppuMemWrite a d s = s := by
  rw [ppuMemWrite, if_pos ha]
  split
  · rfl
  · next h => exact absurd h hs

/-- Any other write of PPU memory sets the byte of its cell and no other. -/
theorem ppuMemory_ppuMemWrite {a : Nat} {s : State} (h : ¬(a < 0x2000 ∧ s.cart.pattern ≠ .ram)) (d : Byte) (r : Nat) :
    ppuMemory (ppuMemWrite a d s) r =
      if r = (ppuCell s a).1 then (ppuMemory s r).set (ppuCell s a).2 d else ppuMemory s r := by
  unfold ppuMemWrite
  split
  · next ha =>
    have hram : s.cart.pattern = .ram := by simpa [ha] using h
    rw [ppuCell_pattern ha]
    simp only [hram]
    rcases r with _ | _ | _ | r <;> rfl
  · split
    · next hlo hhi =>
      rw [ppuCell_nametable (by omega) hhi]
      rcases r with _ | _ | _ | r <;> rfl
    · next hlo =>
      rw [ppuCell_palette (by omega)]
      rcases r with _ | _ | _ | r <;> rfl

/-- A write of PPU memory does not change which byte an address names. -/
theorem ppuCell_ppuMemWrite (a : Nat) (d : Byte) (s : State) : ppuCell (ppuMemWrite a d s) = ppuCell s := by
  unfold ppuMemWrite
  split
  · split <;> rfl
  · split <;> rfl

/-- The memories of the PPU are canonical where all of the machine's are. -/
theorem ppuMemory_wf {s : State} (h : s.memoriesOk) (r : Nat) : (ppuMemory s r).wf := by
  obtain ⟨-, ⟨hvram, -⟩, ⟨hpalette, -⟩, -, -, ⟨hchr, -⟩, -⟩ := h
  rcases r with _ | _ | _ | r
  · exact hchr
  · exact hvram
  · exact hpalette
  · exact ⟨.nil, nofun⟩

/-- A read of PPU memory after a write: the byte written wherever the address names the same byte, the old one elsewhere. -/
theorem ppuMemRead_ppuMemWrite {a : Nat} {s : State} (hs : s.memoriesOk) (h : ¬(a < 0x2000 ∧ s.cart.pattern ≠ .ram)) (d : Byte)
    (b : Nat) : ppuMemRead b (ppuMemWrite a d s) = if ppuCell s b = ppuCell s a then d else ppuMemRead b s := by
  rw [ppuMemRead_eq, ppuMemRead_eq, ppuCell_ppuMemWrite, ppuMemory_ppuMemWrite h]
  by_cases hr : (ppuCell s b).1 = (ppuCell s a).1
  · rw [if_pos hr, Memory.get_set _ (ppuMemory_wf hs _)]
    simp only [Prod.ext_iff, hr, true_and]
  · rw [if_neg hr, if_neg fun he => hr (congrArg Prod.fst he)]

end Sys2Proof.Machine

open Sys2Proof.Machine

/-- Settles O28: the map is `ppuMemRead` region by region, and a write sets the byte of its cell. -/
theorem ppuMemoryMapMirrors : Obligations.PpuMemoryMapMirrors := by
  intro s a
  refine ⟨fun h => if_pos h, fun hlo hhi => ⟨fun hm => ?_, fun hm => ?_⟩, fun hlo hhi => ?mirror, fun hlo hhi => ?palette,
    fun _ hs d b _ => ?write⟩
  · rw [ppuMemRead_eq, ppuCell_nametable hlo (by omega), hm]
    rfl
  · rw [ppuMemRead_eq, ppuCell_nametable hlo (by omega), hm]
    rfl
  case mirror =>
    have hi : nametableIndex s.cart.mirroring (a - 0x1000) = nametableIndex s.cart.mirroring a := by
      unfold nametableIndex
      split <;> omega
    rw [ppuMemRead_eq, ppuMemRead_eq, ppuCell_nametable (by omega) hhi, ppuCell_nametable (by omega) (by omega), hi]
  case palette =>
    have hi : paletteIndex a = if a % 32 = 16 ∨ a % 32 = 20 ∨ a % 32 = 24 ∨ a % 32 = 28 then a % 32 - 16 else a % 32 := by
      unfold paletteIndex
      split <;> split <;> omega
    rw [ppuMemRead_eq, ppuCell_palette hlo, hi]
    rfl
  case write =>
    by_cases hrom : a < 0x2000 ∧ s.cart.pattern ≠ .ram
    · rw [ppuMemWrite_rom hrom.1 hrom.2, if_neg fun h => h.2 hrom]
    · rw [ppuMemRead_ppuMemWrite hs hrom]
      simp only [hrom, not_false_eq_true, and_true]
end

section
/-! SUPPORT. The dots of a frame: where the PPU stands after each number of dots from a frame's start, and the dots that set and
clear VBlank and the NMI (60_exceptions.md R341 to R345). -/

namespace Sys2Proof.Machine

open Sys2Proof.Claims

/-- The dots of a frame, one less on odd frames (60_exceptions.md R342). -/
def frameDots (frame : Nat) : Nat := if frame % 2 = 1 then 89341 else 89342

/-- What a dot does to the flags leaves the PPU's position alone. -/
theorem Ppu.dotActions_eq (n : Nat) (p : Ppu) : p.dotActions n =
    { p with
      vblank := (p.dotActions n).vblank
      sprite0Hit := (p.dotActions n).sprite0Hit
      spriteOverflow := (p.dotActions n).spriteOverflow } := by
  unfold Ppu.dotActions
  split <;> rfl

/-- The dot that follows, in every state: the next of the scanline, or the first of another (60_exceptions.md R341, R342). -/
theorem ppuStep_dot (s : State) : (ppuStep s).ppu.dot = if s.ppu.nextDot = 341 then 0 else s.ppu.nextDot := by
  change (Ppu.advanceDot _).dot = _
  rw [Ppu.dotActions_eq, Ppu.advanceDot]
  change (if s.ppu.nextDot = 341 then _ else _ : Ppu).dot = _
  split
  · split <;> rfl
  · rfl

/-- A frame's dots by its parity. -/
theorem frameDots_cases (frame : Nat) :
    frame % 2 = 1 ∧ frameDots frame = 89341 ∨ frame % 2 = 0 ∧ frameDots frame = 89342 := by
  unfold frameDots
  split <;> omega

/-- The dot after a dot, but for the one that odd frames skip (60_exceptions.md R342). -/
theorem Ppu.nextDot_cases (p : Ppu) :
    (p.frame % 2 = 1 ∧ p.scanline = 261 ∧ p.dot = 338) ∧ p.nextDot = 340 ∨
      ¬(p.frame % 2 = 1 ∧ p.scanline = 261 ∧ p.dot = 338) ∧ p.nextDot = p.dot + 1 := by
  unfold Ppu.nextDot
  split <;> omega

/-- Fewer dots than a frame's lead from its start to the dot of that number in the same frame; only the last dot of an odd frame
stands one further, behind the skipped dot (60_exceptions.md R342). -/
theorem iterate_ppuStep_position {s : State} (h : frameStart s) {k : Nat} (hk : k < frameDots s.ppu.frame) :
    (ppuStep^[k] s).ppu.positionOk ∧ (ppuStep^[k] s).ppu.frame = s.ppu.frame ∧
      (¬(s.ppu.frame % 2 = 1 ∧ k = 89340) ∧ (ppuStep^[k] s).ppu.scanline * 341 + (ppuStep^[k] s).ppu.dot = k ∨
        (s.ppu.frame % 2 = 1 ∧ k = 89340) ∧ (ppuStep^[k] s).ppu.scanline * 341 + (ppuStep^[k] s).ppu.dot = 89341) := by
  have hn := frameDots_cases s.ppu.frame
  induction k with
  | zero =>
    obtain ⟨hline, hdot⟩ := h
    rw [Function.iterate_zero_apply, hline, hdot]
    exact ⟨⟨by omega, by omega, by omega⟩, rfl, .inl ⟨by omega, rfl⟩⟩
  | succ k ih =>
    obtain ⟨hok, hframe, hk'⟩ := ih (by omega)
    have hpos : (ppuStep^[k] s).ppu.scanline * 341 + (ppuStep^[k] s).ppu.dot = k := by omega
    clear hk'
    rw [Function.iterate_succ_apply']
    obtain ⟨hline, hdot, -⟩ := id hok
    rcases ppuStep_position _ hok with ⟨hd, hl', hd', hf', -⟩ | ⟨hd, hl, hl', hd', hf', -⟩ | ⟨hd, hl, -⟩
    · refine ⟨ppuStep_positionOk _ hok, hf'.trans hframe, ?_⟩
      rw [hl', hd']
      rcases (ppuStep^[k] s).ppu.nextDot_cases with ⟨⟨hodd, hl, hd⟩, hnext⟩ | ⟨hskip, hnext⟩ <;> rw [hnext]
      · exact .inr (by omega)
      · exact .inl (by omega)
    · exact ⟨ppuStep_positionOk _ hok, hf'.trans hframe, by omega⟩
    · omega

/-- After a frame's dots the PPU is at the start of the next frame, with the flag for the driver set (60_exceptions.md R343). -/
theorem iterate_ppuStep_frameDots {s : State} (h : frameStart s) :
    frameStart (ppuStep^[frameDots s.ppu.frame] s) ∧ (ppuStep^[frameDots s.ppu.frame] s).ppu.frame = s.ppu.frame + 1 ∧
      (ppuStep^[frameDots s.ppu.frame] s).ppu.frameComplete = true := by
  have hn := frameDots_cases s.ppu.frame
  obtain ⟨m, hm⟩ : ∃ m, frameDots s.ppu.frame = m + 1 := Nat.exists_eq_succ_of_ne_zero (by omega)
  obtain ⟨hok, hframe, hpos⟩ := iterate_ppuStep_position h (k := m) (by omega)
  rw [hm, Function.iterate_succ_apply']
  obtain ⟨hline, hdot, -⟩ := id hok
  rcases ppuStep_position _ hok with ⟨hd, -⟩ | ⟨hd, hl, -⟩ | ⟨-, -, hl', hd', hf', hfc'⟩
  · omega
  · omega
  · exact ⟨⟨hl', hd'⟩, by rw [hf', hframe], hfc'⟩

/-- The dot of vertical-blank entry (60_exceptions.md R344). -/
theorem Ppu.atVblankEntry_eq (p : Ppu) : p.atVblankEntry = decide (p.scanline = 241 ∧ p.dot = 1) := by
  rw [Ppu.atVblankEntry, beq_eq_decide, beq_eq_decide, Bool.decide_and]

/-- The dot that clears the status flags (60_exceptions.md R345). -/
theorem Ppu.atPreRender_eq (p : Ppu) : p.atPreRender = decide (p.scanline = 261 ∧ p.dot = 1) := by
  rw [Ppu.atPreRender, beq_eq_decide, beq_eq_decide, Bool.decide_and]

/-- A dot sets the NMI only at vertical-blank entry with control bit 7 set (60_exceptions.md R344). -/
theorem ppuStep_nmiPending (s : State) :
    (ppuStep s).nmiPending = (s.nmiPending || decide (s.ppu.scanline = 241 ∧ s.ppu.dot = 1) && bitOf 7 s.ppu.ctrl) := by
  rw [← Ppu.atVblankEntry_eq, bitOf_eq_getLsbD, ppuStep]

/-- A dot sets VBlank at its entry, clears it on the pre-render line, and else keeps it (60_exceptions.md R344, R345). -/
theorem ppuStep_vblank (s : State) : (ppuStep s).ppu.vblank =
    if s.ppu.scanline = 261 ∧ s.ppu.dot = 1 then false
    else s.ppu.vblank || decide (s.ppu.scanline = 241 ∧ s.ppu.dot = 1) := by
  rw [(ppuStep_flags s).1, ← Ppu.atVblankEntry_eq, Ppu.dotActions, Ppu.atPreRender_eq]
  simp only [decide_eq_true_eq]
  split <;> rfl

end Sys2Proof.Machine

open Sys2Proof.Machine

/-- Settles O34: by induction on the dots of a frame, then the frame's last dot; the scanlines' dots are `Ppu.nextDot`. -/
theorem framesHaveTheirDotCounts : Obligations.FramesHaveTheirDotCounts := by
  refine ⟨fun s hs => ⟨fun k hk => ?_, iterate_ppuStep_frameDots hs⟩, fun s => ?dot⟩
  · obtain ⟨-, hframe, -⟩ := iterate_ppuStep_position hs hk
    exact hframe
  case dot =>
    rw [ppuStep_dot]
    have hnext := s.ppu.nextDot_cases
    split_ifs <;> omega
end

section
/-! SUPPORT. Interrupts at a boundary: what an instruction and a step leave of the two interrupt lines, and what taking an interrupt
does (60_exceptions.md R310 to R313, 70_reset_and_hazards.md R410). -/

namespace Sys2Proof.Machine

open Sys2Proof.Claims

/-- What an instruction can do leaves the interrupt lines alone (60_exceptions.md R311, R313). -/
theorem ExecFrom.interruptLines {s t : State} (h : ExecFrom s t) : t.nmiPending = s.nmiPending ∧ t.irqLine = s.irqLine := by
  obtain ⟨u, hw, -, hc⟩ := h
  obtain ⟨ram, q, k, chr, stall, n, rfl, -⟩ := hw.touched
  rw [CpuFrom] at hc
  rw [hc]
  exact ⟨rfl, rfl⟩

/-- No instruction changes the NMI's pending flag (60_exceptions.md R344). -/
theorem exec_nmiPending {i : Instr} {s t : State} (h : exec i s = .next t) : t.nmiPending = s.nmiPending :=
  (exec_from h).interruptLines.1

/-- A boundary leaves the IRQ line alone and sets no NMI (60_exceptions.md R311 to R313). -/
theorem boundary_interruptLines {s u : State} (h : boundary s = .next u) :
    u.irqLine = s.irqLine ∧ (u.nmiPending = true → s.nmiPending = true) := by
  rcases boundary_cases h with ⟨hn, rfl⟩ | ⟨-, -, -, rfl⟩ | ⟨-, -, i, t, hf, he⟩
  · exact ⟨rfl, fun _ => hn⟩
  · exact ⟨rfl, id⟩
  · obtain ⟨hn, hi⟩ := (exec_from he).interruptLines
    obtain ⟨vb, w, v, rb, h0, h1, n, rfl, -⟩ := (fetch_readFrom hf).touched
    exact ⟨hi, fun hu => hn ▸ hu⟩

/-- The two kinds of step: inside an instruction, and at a boundary (70_reset_and_hazards.md R410). -/
theorem step_cases {s t : State} (h : step s = .next t) :
    (s.cyclesRemaining ≠ 0 ∧ t = endCycle (counted s)) ∨
      (s.cyclesRemaining = 0 ∧ ∃ u, boundary (counted s) = .next u ∧ t = afterBoundary u) := by
  by_cases hh : s.halted = true
  · rw [step, driverCycle, if_pos hh] at h
    cases h
  · rw [Bool.not_eq_true] at hh
    by_cases hc : s.cyclesRemaining = 0
    · rw [step_boundary hh hc] at h
      split at h
      · next u hb => cases h; exact .inr ⟨hc, u, hb, rfl⟩
      · cases h
      · cases h
    · rw [step_inside hh hc] at h
      cases h
      exact .inl ⟨hc, rfl⟩

/-- The end of a boundary cycle: an undefined opcode ends it at once, anything else counts its first cycle
(70_reset_and_hazards.md R410). -/
theorem afterBoundary_eq (t : State) : afterBoundary t = if t.halted then t else cycleEnd t := by
  have hf : (!(t.cyclesRemaining + t.dmaStall - 1 == 0)) = decide (t.cyclesRemaining + t.dmaStall - 1 ≠ 0) := by
    rw [beq_eq_decide, decide_not]
  unfold afterBoundary
  rw [endCycle, chargeStall, cycleEnd]
  simp only [hf]

/-- A step leaves the IRQ line alone, and an NMI pending after it was pending after its three dots (60_exceptions.md R311 to
R313). -/
theorem step_interruptLines {s t : State} (h : step s = .next t) :
    t.irqLine = s.irqLine ∧ (t.nmiPending = true → (threeDots s).nmiPending = true) := by
  obtain ⟨-, -, -, hirq, -, -, -, -, hnmi⟩ := counted_cpu s
  rcases step_cases h with ⟨-, rfl⟩ | ⟨-, u, hb, rfl⟩
  · exact ⟨hirq, fun hn => hnmi ▸ hn⟩
  · obtain ⟨hi, hn⟩ := boundary_interruptLines hb
    rw [hirq] at hi
    rw [hnmi] at hn
    rw [afterBoundary_eq]
    split
    · exact ⟨hi, hn⟩
    · exact ⟨hi, hn⟩

/-- Taking an interrupt is three bus writes down the stack and two bus reads of a vector in program ROM (60_exceptions.md R310;
log 13). -/
theorem enterInterrupt_entered (ret : Word) (b : Bool) {vector : Word} (hlo : 0x8000 ≤ vector.toNat)
    (hhi : 0x8000 ≤ (vector + 1).toNat) (s : State) : Entered ret b vector s (enterInterrupt ret b vector s) := by
  obtain ⟨t, hpush1, hpush2⟩ := pushWord_memWrite s ret
  have hpush3 : memWrite (stackAddr (s.sp - 2)) (pack s.p b) { s with ram := (s.pushWord ret).ram } =
      .ok { s with ram := ((s.pushWord ret).push (pack s.p b)).ram } := by
    rw [stackAddr_eq_or, stack_memWrite, State.push, State.pushWord_eq]
  have hsp : s.sp - 1 - 1 - 1 = s.sp - 3 := by bv_omega
  rw [Entered, hi_eq_highByte, lo_eq_lowByte, packed_eq_pack]
  refine ⟨t, _, _, _, _, hpush1, hpush2, hpush3, memRead_rom _ hlo, memRead_rom _ hhi, ?_⟩
  rw [word_eq_wordOf, ← hsp]
  rfl

@[simp] theorem enterInterrupt_halted (ret : Word) (b : Bool) (vector : Word) (s : State) :
    (enterInterrupt ret b vector s).halted = s.halted := rfl

/-- Taking an interrupt leaves the IRQ line to its source (60_exceptions.md R313). -/
@[simp] theorem enterInterrupt_irqLine (ret : Word) (b : Bool) (vector : Word) (s : State) :
    (enterInterrupt ret b vector s).irqLine = s.irqLine := rfl

/-- Taking an interrupt sets I and no other flag (60_exceptions.md R310). -/
@[simp] theorem enterInterrupt_p (ret : Word) (b : Bool) (vector : Word) (s : State) :
    (enterInterrupt ret b vector s).p = { s.p with i := true } := rfl

@[simp] theorem cycleEnd_irqLine (t : State) : (cycleEnd t).irqLine = t.irqLine := rfl

@[simp] theorem cycleEnd_p (t : State) : (cycleEnd t).p = t.p := rfl

/-- The statements' boundary state is the model's. -/
theorem atBoundary_eq_counted : atBoundary = counted := rfl

/-- A step at a boundary of a running session ends the cycle of what it starts (70_reset_and_hazards.md R410). -/
theorem step_of_boundary {s u : State} (hrun : s.halted = false) (hc : s.cyclesRemaining = 0)
    (hb : boundary (counted s) = .next u) : step s = .next (if u.halted then u else cycleEnd u) := by
  rw [step_boundary hrun hc, hb, ← afterBoundary_eq]

/-- A step of a running session that takes an interrupt ends the cycle of the entry (60_exceptions.md R310). -/
theorem step_of_enterInterrupt {s u : State} {ret vector : Word} {b : Bool} (hrun : s.halted = false) (hc : s.cyclesRemaining = 0)
    (hu : u.halted = false) (hb : boundary (counted s) = .next (enterInterrupt ret b vector u)) :
    step s = .next (cycleEnd (enterInterrupt ret b vector u)) := by
  rw [step_of_boundary hrun hc hb, enterInterrupt_halted, hu, if_neg Bool.false_ne_true]

/-- A pending NMI is taken whatever the IRQ line and I hold, and no longer pending (60_exceptions.md R312). -/
theorem boundary_nmi {s : State} (hn : s.nmiPending = true) :
    boundary s = .next (enterInterrupt s.pc false Config.nmiVector { s with nmiPending := false }) := by
  rw [boundary, if_pos hn]

/-- An asserted IRQ line is taken where I is clear and no NMI is pending (60_exceptions.md R313). -/
theorem boundary_irq {s : State} (hn : s.nmiPending = false) (hl : s.irqLine = true) (hi : s.p.i = false) :
    boundary s = .next (enterInterrupt s.pc false Config.irqVector s) := by
  rw [boundary, if_neg (by simp [hn]), if_pos (by simp [hl, hi])]

end Sys2Proof.Machine

open Sys2Proof.Machine Sys2Proof.Claims

/-- Settles O35: the dots' flags by their two dots, and no instruction or boundary sets the NMI. -/
theorem vblankEntryAssertsNmi : Obligations.VblankEntryAssertsNmi := by
  refine ⟨fun s hl hd => ⟨?_, ?_⟩, fun s hne => ⟨?_, fun hpre => ?_⟩, fun s hl hd => ?clear, fun i s t => exec_nmiPending,
    fun s t h => (step_interruptLines h).2⟩
  · rw [ppuStep_vblank, if_neg (by omega), decide_eq_true ⟨hl, hd⟩, Bool.or_true]
  · rw [ppuStep_nmiPending, decide_eq_true ⟨hl, hd⟩, Bool.true_and]
  · rw [ppuStep_nmiPending, decide_eq_false hne, Bool.false_and, Bool.or_false]
  · rw [ppuStep_vblank, if_neg hpre, decide_eq_false hne, Bool.or_false]
  case clear =>
    obtain ⟨hvb, hs0, hso⟩ := ppuStep_flags s
    rw [hvb, hs0, hso, Ppu.dotActions, Ppu.atPreRender_eq, decide_eq_true ⟨hl, hd⟩, if_pos rfl]
    exact ⟨rfl, rfl, rfl⟩

/-- Settles O37: with an NMI pending after the three dots the boundary enters through its vector, before it looks at I and the IRQ
line. -/
theorem nmiIsTakenAtABoundary : Obligations.NmiIsTakenAtABoundary := by
  refine ⟨fun s hrun hc hn => ?_, ppuStep_nmiPending, fun i s t => exec_nmiPending⟩
  obtain ⟨hpc, -, -, -, hhalted, -, -, -, hnmi⟩ := counted_cpu s
  rw [atBoundary_eq_counted, ← hpc]
  exact ⟨_, enterInterrupt_entered _ false (by decide) (by decide) _,
    step_of_enterInterrupt hrun hc (hhalted.trans hrun) (boundary_nmi (hnmi.trans hn))⟩

/-- Settles O38: with no NMI pending the boundary enters through the IRQ vector where I is clear and runs the fetched instruction
where it is set; no step changes the line. -/
theorem irqIsTakenOnlyWhenIIsClear : Obligations.IrqIsTakenOnlyWhenIIsClear := by
  refine ⟨fun s hrun hc hn hl => ?_, fun s t h => (step_interruptLines h).1, rfl⟩
  obtain ⟨hpc, hp, -, hirq, hhalted, -, -, -, hnmi⟩ := counted_cpu s
  rw [atBoundary_eq_counted, ← hpc, ← hp]
  refine ⟨fun hi => ?taken, fun hi i u t hf he => ?masked⟩
  case taken =>
    refine ⟨_, enterInterrupt_entered _ false (by decide) (by decide) _,
      step_of_enterInterrupt hrun hc (hhalted.trans hrun) (boundary_irq (hnmi.trans hn) (hirq.trans hl) hi), ?_, ?_⟩
    · rw [cycleEnd_irqLine, enterInterrupt_irqLine, hirq, hl]
    · rw [cycleEnd_p, enterInterrupt_p]
  case masked =>
    exact step_of_boundary hrun hc ((boundary_fetch (hnmi.trans hn) (.inr hi) hf).trans he)
end

section
/-! SUPPORT. Decoding by the cells of the opcode map: what `decode` makes of a cell's bytes, and the bytes that `encode` gives a cell's
instructions (30_encoding.md R100 to R107). -/

namespace Sys2Proof.Machine

open Sys2Proof.Claims

/-- The cell of an undefined opcode takes no operand byte (30_encoding.md R106). -/
theorem decode_undefined {op : Byte} (h : opcodeShape op = .undefined) (rest : List Byte) :
    decode (op :: rest) = .ok (.illegal op, rest) := by
  simp only [decode, h]

/-- A one-byte cell takes no operand byte. -/
theorem decode_implied {op : Byte} {i : Instr} (h : opcodeShape op = .implied i) (rest : List Byte) :
    decode (op :: rest) = .ok (i, rest) := by
  simp only [decode, h]

/-- BRK's cell skips its padding byte (30_encoding.md R101). -/
theorem decode_padded {op : Byte} {i : Instr} (h : opcodeShape op = .padded i) (b : Byte) (rest : List Byte) :
    decode (op :: b :: rest) = .ok (i, rest) := by
  simp only [decode, h]

/-- A cell with one operand byte takes it. -/
theorem decode_byte {op : Byte} {f : Byte → Instr} (h : opcodeShape op = .byte f) (b : Byte) (rest : List Byte) :
    decode (op :: b :: rest) = .ok (f b, rest) := by
  simp only [decode, h]

/-- A cell with a 16-bit operand takes its low byte first (30_encoding.md R102). -/
theorem decode_word {op : Byte} {f : Word → Instr} (h : opcodeShape op = .word f) (b1 b2 : Byte) (rest : List Byte) :
    decode (op :: b1 :: b2 :: rest) = .ok (f (wordOf b1 b2), rest) := by
  simp only [decode, h]

/-- The bytes of a 16-bit operand decode to it. -/
theorem decode_word_low_high {op : Byte} {f : Word → Instr} (h : opcodeShape op = .word f) (a : Word) (rest : List Byte) :
    decode (op :: lowByte a :: highByte a :: rest) = .ok (f a, rest) := by
  rw [decode_word h, wordOf_low_high]

/-- The instructions of a cell encode to the cell's opcode byte and their operand bytes; the one padded cell is BRK's, byte $00. -/
theorem opcodeShape_encode (op b : Byte) (a : Word) :
    match opcodeShape op with
    | .undefined => encode (.illegal op) = [op]
    | .implied i => encode i = [op]
    | .padded i => (i, op) = (.brk, 0)
    | .byte f => encode (f b) = [op, b]
    | .word f => encode (f a) = [op, lowByte a, highByte a] := by
  obtain ⟨n, hn, rfl⟩ : ∃ n, n < 256 ∧ op = BitVec.ofNat 8 n := ⟨op.toNat, op.isLt, by simp⟩
  interval_cases n <;> rfl

/-- The bytes that a cell of the opcode map gives to one of its instructions (30_encoding.md R101 to R105). -/
inductive CellBytes : Instr → List Byte → Prop
  | undefined {op : Byte} (h : opcodeShape op = .undefined) : CellBytes (.illegal op) [op]
  | implied {op : Byte} {i : Instr} (h : opcodeShape op = .implied i) : CellBytes i [op]
  | padded {op : Byte} (h : opcodeShape op = .padded .brk) : CellBytes .brk [op, 0]
  | byte {op : Byte} {f : Byte → Instr} (b : Byte) (h : opcodeShape op = .byte f) : CellBytes (f b) [op, b]
  | word {op : Byte} {f : Word → Instr} (a : Word) (h : opcodeShape op = .word f) : CellBytes (f a) [op, lowByte a, highByte a]

/-- Every well-formed instruction is encoded as its cell says (30_encoding.md R104). -/
theorem encode_cellBytes {i : Instr} (hwf : i.wellFormed = true) : CellBytes i (encode i) := by
  cases i
  case illegal op => exact .undefined (opcodeShape_of_undefined hwf)
  case brk => exact .padded rfl
  case tax | tay | txa | tya | tsx | txs | inx | iny | dex | dey | aslAcc | lsrAcc | rolAcc | rorAcc | pha | php | pla | plp |
      rts | rti | clc | cld | cli | clv | sec | sed | sei | nop =>
    exact .implied rfl
  case ldaAbs a | ldaAbx a | ldaAby a | ldxAbs a | ldxAby a | ldyAbs a | ldyAbx a | staAbs a | staAbx a | staAby a | stxAbs a |
      styAbs a | adcAbs a | adcAbx a | adcAby a | sbcAbs a | sbcAbx a | sbcAby a | andAbs a | andAbx a | andAby a | oraAbs a |
      oraAbx a | oraAby a | eorAbs a | eorAbx a | eorAby a | cmpAbs a | cmpAbx a | cmpAby a | cpxAbs a | cpyAbs a | bitAbs a |
      incAbs a | incAbx a | decAbs a | decAbx a | aslAbs a | aslAbx a | lsrAbs a | lsrAbx a | rolAbs a | rolAbx a | rorAbs a |
      rorAbx a | jmpAbs a | jmpInd a | jsrAbs a =>
    exact .word a rfl
  all_goals exact .byte _ rfl

/-- Outside the undefined cells no well-formed instruction is the undefined opcode, and R106 does not list the byte. -/
theorem eq_illegal_iff_of_defined {i : Instr} {op : Byte} (hwf : i.wellFormed = true) (h : opcodeShape op ≠ .undefined) :
    i = .illegal op ↔ undefinedOpcodes.contains op = true := by
  refine iff_of_false (fun hi => h ?_) (fun hc => h (opcodeShape_of_undefined hc))
  rw [hi] at hwf
  exact opcodeShape_of_undefined hwf

/-- An instruction's first byte is its opcode byte. -/
theorem opcodeOf_eq {i : Instr} {op : Byte} {operands : List Byte} (h : encode i = op :: operands) : opcodeOf i = op := by
  rw [opcodeOf, h, List.headD_cons]

end Sys2Proof.Machine

open Sys2Proof Sys2Proof.Machine

/-- Settles O47: an instruction has the bytes of its cell in the opcode map, and each kind of cell decodes its own. -/
theorem decodingAnEncodedInstructionGivesItBack : Obligations.DecodingAnEncodedInstructionGivesItBack := by
  intro i rest hwf
  have hcell := encode_cellBytes hwf
  generalize encode i = bytes at hcell
  cases hcell with
  | undefined h => exact decode_undefined h rest
  | implied h => exact decode_implied h rest
  | padded h => exact decode_padded h 0 rest
  | byte b h => exact decode_byte h b rest
  | word a h => exact decode_word_low_high h a rest

/-- Settles O48: by the five kinds of cell in the opcode map, of which $00 has the padded one. -/
theorem everyOpcodeByteDecodes : Obligations.EveryOpcodeByteDecodes := by
  intro op b1 b2 rest
  have hwf := opcodeShape_wellFormed op
  have henc := fun a => opcodeShape_encode op b1 a
  have hbrk : op = 0 → opcodeShape op = .padded .brk := fun h => h ▸ rfl
  cases hs : opcodeShape op with
  | undefined =>
    rw [hs] at hwf hbrk
    exact ⟨_, _, decode_undefined hs _, hwf, rfl, ⟨fun _ => hwf, fun _ => rfl⟩, fun _ => rfl, fun h => nomatch hbrk h⟩
  | implied i =>
    simp only [hs] at hwf henc hbrk
    refine ⟨_, _, decode_implied hs _, hwf, opcodeOf_eq (henc 0), eq_illegal_iff_of_defined hwf (hs ▸ nofun), fun _ => ?_,
      fun h => nomatch hbrk h⟩
    rw [henc 0, List.singleton_append]
  | padded i =>
    simp only [hs] at henc
    obtain ⟨rfl, rfl⟩ := Prod.mk.inj (henc 0)
    exact ⟨_, _, decode_padded hs _ _, rfl, rfl, eq_illegal_iff_of_defined rfl (hs ▸ nofun), fun h => absurd rfl h,
      fun _ => ⟨rfl, rfl⟩⟩
  | byte f =>
    simp only [hs] at hwf henc hbrk
    refine ⟨_, _, decode_byte hs _ _, hwf b1, opcodeOf_eq (henc 0), eq_illegal_iff_of_defined (hwf b1) (hs ▸ nofun), fun _ => ?_,
      fun h => nomatch hbrk h⟩
    rw [henc 0, List.cons_append, List.singleton_append]
  | word f =>
    simp only [hs] at hwf henc hbrk
    refine ⟨_, _, decode_word hs _ _ _, hwf _, opcodeOf_eq (henc _), eq_illegal_iff_of_defined (hwf _) (hs ▸ nofun), fun _ => ?_,
      fun h => nomatch hbrk h⟩
    rw [henc, lowByte_wordOf, highByte_wordOf, List.cons_append, List.cons_append, List.singleton_append]

/-- Settles O49: each sample is the bytes of one cell of the opcode map, or too few of them. -/
theorem sampleWordsDecode : Obligations.SampleWordsDecode :=
  ⟨decode_byte rfl 0x01 [], decode_word rfl 0x00 0x02 [], decode_implied rfl [], decode_word rfl 0xFF 0x02 [], decode_byte rfl 0xFA [],
    decode_byte rfl 0xFF [], decode_word rfl 0xFF 0x02 [], decode_padded rfl 0xEA [0xA9], decode_padded rfl 0x00 [], rfl,
    decode_undefined rfl [], decode_implied rfl [], decode_implied rfl [], decode_implied rfl [], rfl, rfl⟩
end

section
/-! SUPPORT. The invariant along a step: the dots keep it, a boundary keeps all of it but an OAM DMA's stall, which the rest of the
cycle charges, and a fatal decode error writes its record (60_exceptions.md R300, 70_reset_and_hazards.md R410). -/

namespace Sys2Proof.Machine

open Sys2Proof.Claims

/-- A halted session takes no step (60_exceptions.md R300). -/
theorem step_halted {s : State} (h : s.halted = true) : step s = .fault (.illegalOpcode s.fault) := by
  rw [step, driverCycle, if_pos h]

/-- Bus reads leave PC alone. -/
theorem ReadFrom.pc_eq {s t : State} (h : ReadFrom s t) : t.pc = s.pc := by
  obtain ⟨vb, w, v, rb, h0, h1, n, rfl, -⟩ := h.touched
  rfl

/-- A session that takes a step runs. -/
theorem running_of_step {s t : State} (h : step s = .next t) : s.halted = false := by
  by_contra hh
  rw [step_halted (Bool.of_not_eq_false hh)] at h
  cases h

/-- One dot keeps the invariant. -/
theorem ppuStep_inv {s : State} (h : s.Inv) : (ppuStep s).Inv := by
  obtain ⟨hmem, hpos, hvb, hspr, hctl⟩ := h
  obtain ⟨hmem', hctl', -⟩ := (ppuStep_dotted s).keeps
  exact ⟨hmem' hmem, ppuStep_positionOk s hpos, ppuStep_vblankOk s hpos hvb, ppuStep_spritesOk s hpos hspr, hctl' hctl⟩

/-- The three dots and the count of a driver cycle keep the invariant. -/
theorem counted_inv {s : State} (h : s.Inv) : (counted s).Inv :=
  threeDots_induct State.Inv (fun _ => ppuStep_inv) s h

/-- The end of a cycle touches nothing that the invariant speaks of. -/
theorem endCycle_inv {s : State} (h : s.Inv) : (endCycle s).Inv := h

/-- A boundary keeps the memories and the windows of the PPU's flags. -/
theorem boundary_ppuOk {s u : State} (h : boundary s = .next u) (hs : s.Inv) :
    u.memoriesOk ∧ u.ppu.positionOk ∧ u.ppu.vblankOk ∧ u.ppu.spritesOk := by
  obtain ⟨hmem, hpos, hvb, hspr, -⟩ := hs
  obtain ⟨hmem', hline, hdot, hframe, hzero, hover, hvb'⟩ := boundary_keeps h
  unfold Ppu.positionOk Ppu.vblankOk Ppu.spritesOk
  rw [hline, hdot, hframe, hzero, hover]
  exact ⟨hmem' hmem, hpos, fun hv => hvb (hvb' hv), hspr⟩

/-- A boundary leaves the halted flag and its record alone, unless it fetches one of R106's opcodes: then it writes them and leaves
the DMA stall alone. -/
theorem boundary_halted {s u : State} (h : boundary s = .next u) :
    (u.halted = s.halted ∧ u.fault = s.fault) ∨
      ∃ op, u.halted = true ∧ u.fault = some (s.pc, op) ∧ undefinedOpcodes.contains op = true ∧ u.dmaStall = s.dmaStall := by
  rcases boundary_cases h with ⟨-, rfl⟩ | ⟨-, -, -, rfl⟩ | ⟨-, -, i, t, hf, he⟩
  · exact .inl ⟨rfl, rfl⟩
  · exact .inl ⟨rfl, rfl⟩
  · have hwf := fetch_wellFormed hf
    obtain ⟨vb, w, v, rb, h0, h1, n, rfl, -⟩ := (fetch_readFrom hf).touched
    rcases exec_halted he with ⟨-, hhalted, hfault⟩ | ⟨op, rfl, hhalted, hfault⟩
    · exact .inl ⟨hhalted, hfault⟩
    · cases he
      exact .inr ⟨op, hhalted, hfault, hwf, rfl⟩

/-- The rest of a boundary cycle of a running session leaves no stall and a record exactly when the session halted. -/
theorem afterBoundary_controlOk {s u : State} (h : boundary s = .next u) (hrun : s.halted = false) (hs : s.controlOk) :
    (afterBoundary u).controlOk := by
  obtain ⟨hagree, hrecord, hstall⟩ := hs
  unfold afterBoundary
  rcases boundary_halted h with ⟨hhalted, hfault⟩ | ⟨op, hhalted, hfault, hop, hstall'⟩
  · rw [if_neg (by rw [hhalted, hrun]; exact Bool.false_ne_true)]
    exact ⟨by rw [← hfault, ← hhalted] at hagree; exact hagree, by rw [← hfault] at hrecord; exact hrecord, rfl⟩
  · rw [if_pos hhalted]
    exact ⟨by rw [hhalted, hfault]; rfl, by rw [hfault]; exact hop, hstall'.trans hstall⟩

/-- The rest of a boundary cycle keeps the memories and the windows of the PPU's flags. -/
theorem afterBoundary_ppuOk {u : State} (h : u.memoriesOk ∧ u.ppu.positionOk ∧ u.ppu.vblankOk ∧ u.ppu.spritesOk) :
    (afterBoundary u).memoriesOk ∧ (afterBoundary u).ppu.positionOk ∧ (afterBoundary u).ppu.vblankOk ∧
      (afterBoundary u).ppu.spritesOk := by
  unfold afterBoundary
  split <;> exact h

end Sys2Proof.Machine

open Sys2Proof.Machine Sys2Proof.Claims

/-- Settles O59: by the two kinds of step. -/
theorem everyStepKeepsTheInvariant : Obligations.EveryStepKeepsTheInvariant := by
  intro s t hs h
  have hcounted := counted_inv hs
  rcases step_cases h with ⟨-, rfl⟩ | ⟨-, u, hb, rfl⟩
  · exact endCycle_inv hcounted
  · obtain ⟨-, -, -, -, hhalted, -⟩ := counted_cpu s
    obtain ⟨hmem, hpos, hvb, hspr⟩ := afterBoundary_ppuOk (boundary_ppuOk hb hcounted)
    obtain ⟨-, -, -, -, hctl⟩ := hcounted
    exact ⟨hmem, hpos, hvb, hspr, afterBoundary_controlOk hb (hhalted.trans (running_of_step h)) hctl⟩

/-- Settles O39: such a step counts one cycle off, and the driver takes a complete frame on the last. -/
theorem cyclesBetweenBoundariesOnlyCount : Obligations.CyclesBetweenBoundariesOnlyCount := by
  intro s n hrun hc
  obtain ⟨-, -, -, -, -, -, hcounted, -⟩ := counted_cpu s
  have hlast : (!(n == 0)) = decide (n ≠ 0) := by rw [beq_eq_decide, decide_not]
  rw [step_inside hrun (by omega), endCycle, hcounted, hc, Nat.add_sub_cancel, hlast]
  rfl

/-- Settles O40: with no interrupt to take the boundary is `exec` of the fetched instruction. -/
theorem stepRunsTheDecodedInstruction : Obligations.StepRunsTheDecodedInstruction := by
  intro s i u hrun hc hnone hf
  rw [atBoundary_eq_counted] at hnone hf
  rw [step_boundary hrun hc, boundary_fetch hnone.1 hnone.2 hf]
  cases exec i u with
  | next t => simp only [afterBoundary_eq]
  | fault r => rfl
  | refused r => rfl

/-- Settles O17: an undefined opcode is fetched as `illegal`, whose step ends at once, and a halted session takes none. -/
theorem undefinedOpcodeHaltsTheSession : Obligations.UndefinedOpcodeHaltsTheSession := by
  refine ⟨fun op s => rfl, fun s op u hrun hc hnone hread hop => ?_, fun s => step_halted⟩
  rw [atBoundary_eq_counted] at hnone hread
  obtain ⟨hpc, -⟩ := counted_cpu s
  have hfetch : fetch (counted s) = .ok (.illegal op, u) :=
    fetch_undefined (by rw [hpc]; exact hread) (opcodeShape_of_undefined hop)
  have hupc : u.pc = s.pc := (fetch_readFrom hfetch).pc_eq.trans hpc
  rw [step_of_boundary hrun hc (boundary_fetch hnone.1 hnone.2 hfetch),
    if_pos (show (raiseIllegal op u).halted = true from rfl), raiseIllegal, hupc]

/-- Settles O45: the reset state's fields are those a cold reset writes, its memories are empty and its PPU at the first dot. -/
theorem resetStateIsAColdReset : Obligations.ResetStateIsAColdReset := by
  have hempty : ∀ n, Memory.wf [] ∧ Memory.within n [] := fun n => ⟨⟨.nil, nofun⟩, nofun⟩
  have hmem : State.reset.memoriesOk :=
    ⟨hempty _, hempty _, hempty _, hempty _, hempty _, hempty _, by decide⟩
  have hpos : State.reset.ppu.positionOk := by decide
  exact ⟨rfl, rfl, rfl, rfl, rfl, rfl, hmem, hpos, nofun, fun _ => ⟨rfl, rfl⟩, rfl, rfl, rfl⟩
end

section
/-! SUPPORT. The devices behind the bus, one access at a time: the PPU's control, status and OAM ports, the controllers, the APU region
and the cartridge region (20_memory.md R66, R67, 60_exceptions.md R331 to R335, R360 to R364). -/

namespace Sys2Proof.Machine

open Sys2Proof.Claims

/-- A bus read between the devices and program ROM is a draw (20_memory.md R67). -/
theorem memRead_open {a : Word} (s : State) (hlo : 0x4020 ≤ a.toNat) (hhi : a.toNat < 0x8000) :
    memRead a s = .ok (drawOpen a s) := by
  rw [memRead, if_neg (by omega), if_neg (by omega), if_neg (by omega), cartRead, if_neg (by omega)]

/-- A bus write to the cartridge region has no effect (20_memory.md R66, R67). -/
theorem memWrite_cart {a : Word} (v : Byte) (s : State) (h : 0x4020 ≤ a.toNat) : memWrite a v s = .ok s := by
  rw [memWrite, if_neg (by omega), if_neg (by omega), if_neg (by omega)]

/-- A bus read of the APU and I/O region (60_exceptions.md R360). -/
theorem memRead_io {a : Word} (s : State) (hlo : 0x4000 ≤ a.toNat) (hhi : a.toNat < 0x4020) : memRead a s = .ok (ioRead a s) := by
  rw [memRead, if_neg (by omega), if_neg (by omega), if_pos (by omega)]

/-- A bus write to the APU and I/O region (60_exceptions.md R361). -/
theorem memWrite_io {a : Word} (d : Byte) (s : State) (hlo : 0x4000 ≤ a.toNat) (hhi : a.toNat < 0x4020) :
    memWrite a d s = ioWrite a d s := by
  rw [memWrite, if_neg (by omega), if_neg (by omega), if_pos (by omega)]

/-- A read of a write-only port is a draw (60_exceptions.md R331). -/
theorem portRead_writeOnly {k : Nat} (s : State) (h2 : k ≠ 2) (h4 : k ≠ 4) (h7 : k ≠ 7) :
    portRead k s = .ok (drawOpen (0x2000 + BitVec.ofNat 16 k) s) := by
  unfold portRead
  split
  · exact absurd rfl h2
  · exact absurd rfl h4
  · exact absurd rfl h7
  · rfl

/-- A read of the OAM data port (60_exceptions.md R335). -/
theorem portRead_oamData (s : State) : portRead 4 s =
    if s.ppu.rendering then .error (.portWhileRendering 4) else .ok (s.ppu.oam.get s.ppu.oamAddr.toNat, s) := rfl

/-- The status byte's three flags stand over five drawn bits (60_exceptions.md R333). -/
theorem Ppu.statusByte_toNat (p : Ppu) (draw : Byte) : (p.statusByte draw).toNat =
    128 * p.vblank.toNat + 64 * p.sprite0Hit.toNat + 32 * p.spriteOverflow.toNat + draw.toNat % 32 := by
  rw [Ppu.statusByte, append_toNat, append_toNat, append_toNat, BitVec.toNat_setWidth, BitVec.toNat_ofBool, BitVec.toNat_ofBool,
    BitVec.toNat_ofBool]
  omega

/-- A control write puts its low two bits into bits 11 and 10 of `t` (60_exceptions.md R334). -/
theorem Ppu.ctrlWrite_eq (d : Byte) (p : Ppu) : p.ctrlWrite d =
    { p with ctrl := d, t := p.t.extractLsb' 12 3 ++ (d.extractLsb' 0 2 ++ p.t.extractLsb' 0 10) } := by
  have ht : (p.t &&& ~~~0x0C00#15) ||| ((d &&& 3).setWidth 15 <<< 10) =
      p.t.extractLsb' 12 3 ++ (d.extractLsb' 0 2 ++ p.t.extractLsb' 0 10) := by
    apply BitVec.eq_of_getLsbD_eq
    intro i hi
    rw [BitVec.getLsbD_append, BitVec.getLsbD_append]
    interval_cases i <;> simp
  rw [Ppu.ctrlWrite, ht]

/-- Ports 0 and 1 take a write after the warm-up, port 3 always, and port 2 never (60_exceptions.md R332, R334, R335). -/
theorem portWrite_registers (d : Byte) {s : State} (hs : s.warmupCycles ≤ s.cyclesTotal) :
    portWrite 0 d s = .ok (s.withPpu (s.ppu.ctrlWrite d)) ∧ portWrite 1 d s = .ok (s.withPpu { s.ppu with mask := d }) ∧
      portWrite 2 d s = .ok s ∧ portWrite 3 d s = .ok (s.withPpu { s.ppu with oamAddr := d }) := by
  exact ⟨by rw [portWrite, if_neg (by omega)], by rw [portWrite, if_neg (by omega)], rfl, rfl⟩

end Sys2Proof.Machine

open Sys2Proof.Machine Sys2Proof.Claims

/-- Settles O22: program ROM answers its byte, the region below it a draw, and both ignore writes. -/
theorem cartridgeRegionReadsRomOrADraw : Obligations.CartridgeRegionReadsRomOrADraw := by
  refine ⟨fun s a v h => ⟨?_, memWrite_cart v s (by omega)⟩, fun s a v hlo hhi => ⟨?_, memWrite_cart v s hlo⟩⟩
  · rw [memRead_rom s h, prgByte, prgOffset]
    cases s.cart.prgSize <;> rfl
  · rw [memRead_open s hlo hhi, drawOpen]

/-- Settles O23: the port's read is `statusRead`. -/
theorem statusReadClearsVblankAndLatch : Obligations.StatusReadClearsVblankAndLatch := by
  intro s a ha
  rw [memRead_atPort ha]
  exact ⟨_, rfl, s.ppu.statusByte_toNat _⟩

/-- Settles O25: past the warm-up each port is its register's write. -/
theorem controlWriteSetsNametableBits : Obligations.ControlWriteSetsNametableBits := by
  intro s d hs
  obtain ⟨hctrl, hmask, hstatus, hoam⟩ := portWrite_registers d hs
  refine ⟨fun a ha => ?_, fun a ha => ?_, fun a ha => ?_, fun a ha => ?_⟩ <;> rw [memWrite_atPort ha]
  · rw [hctrl, Ppu.ctrlWrite_eq]
    refine ⟨_, rfl, ?_⟩
    have hd := d.isLt
    have ht := s.ppu.t.isLt
    simp only [append_toNat, BitVec.extractLsb'_toNat, Nat.shiftRight_eq_div_pow]
    omega
  · exact hmask
  · exact hstatus
  · exact hoam

/-- Settles O29: a read leaves oam_addr, a write moves it on, and both are refused where the PPU renders. -/
theorem oamPortsReadAndWriteOam : Obligations.OamPortsReadAndWriteOam := by
  intro s d q hq hwf
  have hnext : s.ppu.oamAddr + 1 = BitVec.ofNat 8 ((s.ppu.oamAddr.toNat + 1) % 256) := by
    apply BitVec.eq_of_toNat_eq
    rw [BitVec.toNat_add, BitVec.toNat_ofNat, Nat.mod_mod]
    rfl
  rw [memRead_atPort hq, memWrite_atPort hq, portRead_oamData, portWrite_oamData, renders_iff_rendering]
  refine ⟨fun hr => ⟨if_pos hr, if_pos hr⟩, fun hr => ⟨if_neg hr, s.ppu.oam.set s.ppu.oamAddr.toNat d, ?_, fun k => ?_⟩⟩
  · rw [if_neg hr, Ppu.oamDataWrite, hnext, State.withPpu]
  · rw [Memory.get_set _ hwf]

/-- Settles O32: the accesses that are no DMA and no controller port, and the write-only ports, are draws or nothing. -/
theorem apuAndPortDrawsHaveNoEffect : Obligations.ApuAndPortDrawsHaveNoEffect := by
  refine ⟨fun s a d hlo hhi => ⟨fun hdma hpad => ?_, fun hpad0 hpad1 => ?_⟩, fun s a hlo hhi h2 h4 h7 => ?_⟩
  · rw [memWrite_io d s hlo hhi, ioWrite, if_neg hdma, if_neg hpad]
  · rw [memRead_io s hlo hhi, ioRead, if_neg hpad0, if_neg hpad1, drawOpen]
  · rw [memRead_atPort ⟨hlo, hhi, rfl⟩, portRead_writeOnly s h2 h4 h7, BitVec.ofNat_add]
    rfl

/-- Settles O14: BRK is the shared interrupt entry through the vector at $FFFE. -/
theorem brkEntersThroughTheIrqVector : Obligations.BrkEntersThroughTheIrqVector :=
  ⟨rfl, fun s => ⟨_, enterInterrupt_entered (s.pc + 2) true (by decide) (by decide) s, rfl⟩⟩

/-- Settles O20: the sign bits that `sumOverflow` compares are those of the two's-complement operands. -/
theorem adderOverflowIsSignedRange : Obligations.AdderOverflowIsSignedRange := by
  intro a m c
  refine ⟨sumResult_toNat a m c, decide_eq_true_iff, ?_⟩
  have ha := a.isLt
  have hm := m.isLt
  have hc := Bool.toNat_le c
  rw [← signs_eq_sumOverflow, decide_eq_true_iff, sumResult_toNat, BitVec.toInt_eq_toNat_cond, BitVec.toInt_eq_toNat_cond]
  split <;> split <;> omega
end

section
/-! SUPPORT. The controllers: a read answers one bit and moves the shift register on while the strobe is off (60_exceptions.md
R364). -/

namespace Sys2Proof.Machine

open Sys2Proof.Claims

/-- A shift register after a read: one to the right, with a 1 entering (60_exceptions.md R364). -/
def shiftIn (h : Byte) : Byte := (h >>> 1) ||| 0x80

/-- A bit enters bit 7 over the halved register. -/
theorem shiftIn_eq (h : Byte) : shiftIn h = BitVec.ofNat 8 (h.toNat / 2 + 128) := by
  revert h
  decide +kernel

/-- After eight reads only 1s are left. -/
theorem iterate_shiftIn_eight (h : Byte) : shiftIn^[8] h = 0xFF := by
  revert h
  decide +kernel

/-- The byte of a controller read: three drawn bits, four clear bits and the button's (60_exceptions.md R364). -/
theorem padByte_toNat (draw : Byte) (b : Bool) : (padByte draw b).toNat = draw.toNat / 32 * 32 + b.toNat := by
  revert draw b
  decide +kernel

/-- Bit 0 of a byte as a number. -/
theorem getLsbD_zero_toNat (m : Byte) : (m.getLsbD 0).toNat = m.toNat % 2 := by
  revert m
  decide +kernel

theorem memRead_pad0 (s : State) : memRead 0x4016 s =
    .ok (padByte (Config.openBus s.openDraws 0x4016)
        (if s.pads.strobe then s.pads.pad0.getLsbD 0 else s.pads.shift0.getLsbD 0),
      { s with
        pads := if s.pads.strobe then s.pads else { s.pads with shift0 := shiftIn s.pads.shift0 }
        openDraws := s.openDraws + 1 }) := by
  rw [memRead_io s (by decide) (by decide), ioRead, if_pos rfl, padRead0]
  cases s.pads.strobe <;> rfl

theorem memRead_pad1 (s : State) : memRead 0x4017 s =
    .ok (padByte (Config.openBus s.openDraws 0x4017)
        (if s.pads.strobe then s.pads.pad1.getLsbD 0 else s.pads.shift1.getLsbD 0),
      { s with
        pads := if s.pads.strobe then s.pads else { s.pads with shift1 := shiftIn s.pads.shift1 }
        openDraws := s.openDraws + 1 }) := by
  rw [memRead_io s (by decide) (by decide), ioRead, if_neg (by decide), if_pos rfl, padRead1]
  cases s.pads.strobe <;> rfl

/-- A read whose effect off the strobe is one shift of the register `g` shifts it `n` times in `n` reads. -/
theorem readTimes_shift {a : Word} {g : State → Byte}
    (h : ∀ s, s.pads.strobe = false → ∃ v t, memRead a s = .ok (v, t) ∧ t.pads.strobe = false ∧ g t = shiftIn (g s)) (n : Nat) :
    ∀ s, s.pads.strobe = false → ∃ t, readTimes a n s = .ok t ∧ t.pads.strobe = false ∧ g t = shiftIn^[n] (g s) := by
  induction n with
  | zero => exact fun s hs => ⟨s, rfl, hs, rfl⟩
  | succ n ih =>
    intro s hs
    obtain ⟨v, t, hread, ht, hg⟩ := h s hs
    obtain ⟨u, hreads, hu, hgu⟩ := ih t ht
    exact ⟨u, by rw [readTimes, hread]; exact hreads, hu, by rw [hgu, hg, Function.iterate_succ_apply]⟩

end Sys2Proof.Machine

open Sys2Proof.Machine Sys2Proof.Claims

/-- Settles O31: by the one read of each controller, and eight shifts. -/
theorem controllersShiftOutButtons : Obligations.ControllersShiftOutButtons := by
  refine ⟨fun s d => ?strobe, fun s => ⟨_, _, memRead_pad0 s, ?_, ?_⟩, fun s => ⟨_, _, memRead_pad1 s, ?_, ?_⟩, fun s hs => ⟨?_, ?_⟩,
    fun s => ⟨rfl, rfl⟩⟩
  case strobe =>
    rw [memWrite_io d s (by decide) (by decide), ioWrite, if_neg (by decide), if_pos rfl, strobeWrite, bitOf_eq_getLsbD]
  · rw [padByte_toNat, apply_ite Bool.toNat, getLsbD_zero_toNat, getLsbD_zero_toNat]
  · rw [shiftIn_eq]
  · rw [padByte_toNat, apply_ite Bool.toNat, getLsbD_zero_toNat, getLsbD_zero_toNat]
  · rw [shiftIn_eq]
  · have h := readTimes_shift (a := 0x4016) (g := fun s => s.pads.shift0)
      (fun s hs => ⟨_, _, memRead_pad0 s, by simp only [hs]; rfl, by simp only [hs]; rfl⟩) 8 s hs
    rwa [iterate_shiftIn_eight] at h
  · have h := readTimes_shift (a := 0x4017) (g := fun s => s.pads.shift1)
      (fun s hs => ⟨_, _, memRead_pad1 s, by simp only [hs]; rfl, by simp only [hs]; rfl⟩) 8 s hs
    rwa [iterate_shiftIn_eight] at h
end

section
/-! SUPPORT. What a dot changes and where it leads, and when it may set a sprite flag (60_exceptions.md R341, R343, R346). -/

namespace Sys2Proof.Machine

open Sys2Proof.Claims

/-- What dots do, with their count as a number (log 3). -/
theorem DottedFrom.onlyDots {s t : State} {n : Nat} (h : DottedFrom s t) (hn : t.dotDraws = s.dotDraws + n) : OnlyDots n s t := by
  rw [OnlyDots, ← hn]
  exact h

/-- Off (261, 1) a dot keeps a true sprite flag, and sets one only on a sprite dot with its mask bits (60_exceptions.md R345,
R346). -/
theorem ppuStep_sprites {s : State} (h : ¬(s.ppu.scanline = 261 ∧ s.ppu.dot = 1)) :
    (ppuStep s).ppu.sprite0Hit = (s.ppu.sprite0Hit ||
      (s.ppu.spriteDot && (bitOf 3 s.ppu.mask && bitOf 4 s.ppu.mask) && Config.spriteZeroDraw s.dotDraws)) ∧
    (ppuStep s).ppu.spriteOverflow = (s.ppu.spriteOverflow ||
      (s.ppu.spriteDot && (bitOf 3 s.ppu.mask || bitOf 4 s.ppu.mask) && Config.overflowDraw s.dotDraws)) := by
  obtain ⟨-, hzero, hover⟩ := ppuStep_flags s
  rw [hzero, hover, Ppu.dotActions, Ppu.atPreRender_eq, decide_eq_false h, bitOf_eq_getLsbD, bitOf_eq_getLsbD]
  exact ⟨rfl, rfl⟩

/-- On (261, 1) a dot clears both sprite flags (60_exceptions.md R345). -/
theorem ppuStep_sprites_preRender {s : State} (h : s.ppu.scanline = 261 ∧ s.ppu.dot = 1) :
    (ppuStep s).ppu.sprite0Hit = false ∧ (ppuStep s).ppu.spriteOverflow = false := by
  obtain ⟨-, hzero, hover⟩ := ppuStep_flags s
  rw [hzero, hover, Ppu.dotActions, Ppu.atPreRender_eq, decide_eq_true h]
  exact ⟨rfl, rfl⟩

/-- From (261, 1) to (0, 0) no dot sets a sprite flag (60_exceptions.md R346). -/
theorem Ppu.spriteDot_eq_false {p : Ppu} (h : (p.scanline = 261 ∧ 1 ≤ p.dot) ∨ (p.scanline = 0 ∧ p.dot = 0)) :
    p.spriteDot = false := by
  rw [Ppu.spriteDot]
  rcases h with ⟨hl, hd⟩ | ⟨hl, hd⟩ <;> simp [hl, hd]

end Sys2Proof.Machine

open Sys2Proof.Machine Sys2Proof.Claims

/-- Settles O33: what a dot can do, counted, and its three cases at a dot of the frame. -/
theorem ppuStepAdvancesOneDot : Obligations.PpuStepAdvancesOneDot := by
  refine ⟨fun s => (ppuStep_dotted s).onlyDots rfl, fun s => ⟨rfl, (threeDots_dotted s).onlyDots rfl⟩, fun s hpos => ?_⟩
  have hnext := s.ppu.nextDot_cases
  rcases ppuStep_position s hpos with ⟨hd, hline, hdot, hframe, hfc, -⟩ | ⟨hd, hl, hline, hdot, hframe, hfc⟩ |
    ⟨hd, hl, hline, hdot, hframe, hfc⟩
  · refine ⟨by omega, by omega, fun _ => ⟨hline, hframe, hfc, ?_⟩⟩
    rw [hdot]
    split <;> omega
  · exact ⟨fun _ _ => ⟨hdot, hline, hframe, hfc⟩, by omega, fun h => absurd hd h⟩
  · exact ⟨by omega, fun _ _ => ⟨hdot, hline, hframe, hfc⟩, fun h => absurd hd h⟩

/-- Settles O36: (261, 1) clears both flags; on any other dot a flag is its old value or a draw under its conditions. -/
theorem spriteFlagsNeedRendering : Obligations.SpriteFlagsNeedRendering := by
  intro s
  by_cases hpre : s.ppu.scanline = 261 ∧ s.ppu.dot = 1
  · obtain ⟨hzero, hover⟩ := ppuStep_sprites_preRender hpre
    simp only [hzero, hover]
    exact ⟨fun h => absurd hpre h, fun _ => nofun, fun _ => nofun, fun _ => ⟨nofun, nofun⟩⟩
  · obtain ⟨hzero, hover⟩ := ppuStep_sprites hpre
    simp only [hzero, hover, Bool.or_eq_true, Bool.and_eq_true]
    refine ⟨fun _ => ⟨.inl, .inl⟩, fun hmask h => ?_, fun hmask h => ?_, fun hwin => ?_⟩
    · rcases hmask with hm | hm <;> simpa [hm] using h
    · obtain ⟨h3, h4⟩ := hmask
      simpa [h3, h4] using h
    · simp [Ppu.spriteDot_eq_false hwin]
end

section
/-! SUPPORT. Fetching from plain memory, RAM and program ROM, and placing a program's bytes there (20_memory.md R65, R66,
70_reset_and_hazards.md R411; log 7). -/

namespace Sys2Proof.Machine

open Sys2Proof.Claims

/-- A bus read of plain memory answers the byte and changes nothing (20_memory.md R65, R66). -/
theorem memRead_plainByte {s : State} {a : Word} {v : Byte} (h : plainByte s a = some v) : memRead a s = .ok (v, s) := by
  unfold plainByte at h
  split at h
  · next hram => cases h; exact memRead_ram s (by omega)
  · split at h
    · next hrom => cases h; exact memRead_rom s hrom
    · cases h

/-- Where the bytes of a cell's instruction can be read with no effect, the fetch answers it (70_reset_and_hazards.md R411). -/
theorem fetch_cellBytes {s : State} {i : Instr} {bytes : List Byte} (hcell : CellBytes i bytes)
    (h : ∀ k (hk : k < bytes.length), memRead (s.pc + BitVec.ofNat 16 k) s = .ok (bytes[k], s)) : fetch s = .ok (i, s) := by
  have hop : ∀ {op : Byte} {operands : List Byte}, bytes = op :: operands → memRead s.pc s = .ok (op, s) := by
    rintro op operands rfl
    have h0 := h 0 (Nat.succ_pos _)
    rwa [BitVec.add_zero] at h0
  cases hcell with
  | undefined hs => exact fetch_undefined (hop rfl) hs
  | implied hs => exact fetch_implied (hop rfl) hs
  | padded hs => exact fetch_padded (hop rfl) hs
  | byte b hs => exact fetch_byte (hop rfl) (h 1 (Nat.lt_add_one 1)) hs
  | word a hs =>
    rw [← wordOf_low_high a]
    exact fetch_word (hop rfl) (h 1 (Nat.lt_of_sub_eq_succ rfl)) (h 2 (Nat.lt_add_one 2)) hs

/-- Where bytes can be placed: in RAM or in program ROM (log 7). -/
theorem placeable_iff (a : Word) : placeable a = true ↔ a.toNat ≤ 0x1FFF ∨ 0x8000 ≤ a.toNat := by
  rw [placeable, Bool.or_eq_true, decide_eq_true_iff, decide_eq_true_iff]

theorem placeByte_ram {a : Word} (h : a.toNat ≤ 0x1FFF) (v : Byte) (s : State) :
    placeByte a v s = { s with ram := s.ram.set (ramIndex a) v } := if_pos h

theorem placeByte_rom {a : Word} (h : 0x8000 ≤ a.toNat) (v : Byte) (s : State) :
    placeByte a v s = { s with cart := { s.cart with prg := s.cart.prg.set (prgOffset s.cart a) v } } := by
  rw [placeByte, if_neg (by omega), if_pos h]

theorem plainByte_ram {a : Word} (h : a.toNat ≤ 0x1FFF) (s : State) : plainByte s a = some (s.ram.get (ramIndex a)) :=
  if_pos (by omega)

theorem plainByte_rom {a : Word} (h : 0x8000 ≤ a.toNat) (s : State) : plainByte s a = some (s.cart.prg.get (prgOffset s.cart a)) := by
  rw [plainByte, if_neg (by omega), if_pos h, prgOffset]

/-- A byte of RAM after a byte is placed in RAM. -/
theorem plainByte_placeByte_ram {s : State} (hs : s.memoriesOk) {a b : Word} (ha : a.toNat ≤ 0x1FFF) (hb : b.toNat ≤ 0x1FFF)
    (v : Byte) : plainByte (placeByte b v s) a = if ramIndex a = ramIndex b then some v else plainByte s a := by
  obtain ⟨⟨hram, -⟩, -⟩ := hs
  rw [placeByte_ram hb, plainByte_ram ha, plainByte_ram ha, Memory.get_set _ hram, apply_ite some]

/-- A byte of program ROM after a byte is placed in program ROM. -/
theorem plainByte_placeByte_rom {s : State} (hs : s.memoriesOk) {a b : Word} (ha : 0x8000 ≤ a.toNat) (hb : 0x8000 ≤ b.toNat)
    (v : Byte) : plainByte (placeByte b v s) a = if prgOffset s.cart a = prgOffset s.cart b then some v else plainByte s a := by
  obtain ⟨-, -, -, -, ⟨hprg, -⟩, -⟩ := hs
  rw [placeByte_rom hb, plainByte_rom ha, plainByte_rom ha, ← apply_ite some]
  exact congrArg some (Memory.get_set _ hprg _ _ _)

/-- A placed byte stands in plain memory (log 7). -/
theorem plainByte_placeByte_same {s : State} (hs : s.memoriesOk) {a : Word} (ha : placeable a = true) (v : Byte) :
    plainByte (placeByte a v s) a = some v := by
  rcases (placeable_iff a).1 ha with h | h
  · rw [plainByte_placeByte_ram hs h h, if_pos rfl]
  · rw [plainByte_placeByte_rom hs h h, if_pos rfl]

/-- The two sizes of program ROM. -/
theorem prgSize_length_cases (c : Cartridge) : c.prgSize.length = 16384 ∨ c.prgSize.length = 32768 := by
  cases c.prgSize
  · exact .inl rfl
  · exact .inr rfl

/-- A byte placed one or two addresses further leaves a byte of plain memory alone (log 7). -/
theorem plainByte_placeByte_further {s : State} (hs : s.memoriesOk) {a b : Word} (ha : placeable a = true) (hb : placeable b = true)
    (hab : b.toNat = (a.toNat + 1) % 65536 ∨ b.toNat = (a.toNat + 2) % 65536) (v : Byte) :
    plainByte (placeByte b v s) a = plainByte s a := by
  rcases (placeable_iff a).1 ha with ha | ha <;> rcases (placeable_iff b).1 hb with hb | hb
  · have hne : ramIndex a ≠ ramIndex b := by rw [ramIndex, ramIndex]; omega
    rw [plainByte_placeByte_ram hs ha hb, if_neg hne]
  · rw [placeByte_rom hb, plainByte_ram ha, plainByte_ram ha]
  · rw [placeByte_ram hb, plainByte_rom ha, plainByte_rom ha]
  · have hne : prgOffset s.cart a ≠ prgOffset s.cart b := by
      have := a.isLt
      rw [prgOffset, prgOffset]
      rcases prgSize_length_cases s.cart with h | h <;> rw [h] <;> omega
    rw [plainByte_placeByte_rom hs ha hb, if_neg hne]

/-- A dot leaves a placed byte where it is. -/
theorem ppuStep_placeByte (a : Word) (v : Byte) (s : State) : ppuStep (placeByte a v s) = placeByte a v (ppuStep s) := by
  unfold placeByte
  split
  · rfl
  · split <;> rfl

/-- Dots and the count leave a placed byte where it is. -/
theorem counted_placeByte (a : Word) (v : Byte) (s : State) : counted (placeByte a v s) = placeByte a v (counted s) := by
  rw [counted, counted, threeDots, threeDots, ppuStep_placeByte, ppuStep_placeByte, ppuStep_placeByte]
  unfold placeByte
  split
  · rfl
  · split <;> rfl

/-- A dot with control bit 7 clear asserts no NMI (60_exceptions.md R344). -/
theorem threeDots_nmiPending_of_ctrl {s : State} (hn : s.nmiPending = false) (hc : bitOf 7 s.ppu.ctrl = false) :
    (threeDots s).nmiPending = false := by
  refine (threeDots_induct (fun s => s.nmiPending = false ∧ bitOf 7 s.ppu.ctrl = false) (fun s hs => ?_) s ⟨hn, hc⟩).1
  obtain ⟨hn, hc⟩ := hs
  obtain ⟨vb, s0, so, l, d, f, fc, nmi, n, h⟩ := (ppuStep_dotted s).touched
  refine ⟨by rw [ppuStep_nmiPending, hn, hc, Bool.and_false, Bool.or_false], ?_⟩
  rw [h]
  exact hc

/-- The boundary of a running session that `readyToFetch` starts from, with no interrupt pending (log 7). -/
def fetchBoundary (s : State) : State :=
  { s with
    pc := if placeable s.pc && placeable (s.pc + 1) && placeable (s.pc + 2) then s.pc else 0
    cyclesRemaining := 0, halted := false, fault := none, nmiPending := false, irqLine := false }

/-- Where the three dots would assert the NMI, `readyToFetch` clears control bit 7 (log 7). -/
theorem readyToFetch_eq (s : State) : readyToFetch s =
    if (threeDots (fetchBoundary s)).nmiPending then
      (fetchBoundary s).withPpu { (fetchBoundary s).ppu with ctrl := (fetchBoundary s).ppu.ctrl &&& 0x7F }
    else fetchBoundary s := rfl

/-- The state made ready to fetch runs, is at a boundary and keeps its memories (log 7). -/
theorem readyToFetch_running (s : State) : (readyToFetch s).halted = false ∧ (readyToFetch s).cyclesRemaining = 0 ∧
    (readyToFetch s).irqLine = false ∧ (readyToFetch s).pc = (fetchBoundary s).pc ∧ (s.memoriesOk → (readyToFetch s).memoriesOk) := by
  rw [readyToFetch_eq]
  split <;> exact ⟨rfl, rfl, rfl, rfl, id⟩

/-- The state made ready to fetch is at an address where three bytes can be placed (log 7). -/
theorem readyToFetch_placeable (s : State) : placeable (readyToFetch s).pc = true ∧ placeable ((readyToFetch s).pc + 1) = true ∧
    placeable ((readyToFetch s).pc + 2) = true := by
  obtain ⟨-, -, -, hpc, -⟩ := readyToFetch_running s
  rw [hpc, fetchBoundary]
  dsimp only
  split
  · next h =>
    rw [Bool.and_eq_true, Bool.and_eq_true] at h
    exact ⟨h.1.1, h.1.2, h.2⟩
  · decide

/-- In the state made ready to fetch no NMI is pending after the three dots (log 7). -/
theorem threeDots_readyToFetch_nmiPending (s : State) : (threeDots (readyToFetch s)).nmiPending = false := by
  rw [readyToFetch_eq]
  split
  · exact threeDots_nmiPending_of_ctrl rfl (by simp [bitOf_eq_getLsbD])
  · next h => exact Bool.of_not_eq_true h

/-- Dots and the count keep the memories. -/
theorem counted_memoriesOk {s : State} (h : s.memoriesOk) : (counted s).memoriesOk :=
  (threeDots_dotted s).keeps.1 h

/-- Placing a byte leaves the CPU alone. -/
theorem placeByte_cpu (a : Word) (v : Byte) (s : State) : (placeByte a v s).halted = s.halted ∧
    (placeByte a v s).cyclesRemaining = s.cyclesRemaining ∧ (placeByte a v s).irqLine = s.irqLine ∧
    (placeByte a v s).nmiPending = s.nmiPending ∧ (placeByte a v s).pc = s.pc := by
  unfold placeByte
  split
  · exact ⟨rfl, rfl, rfl, rfl, rfl⟩
  · split <;> exact ⟨rfl, rfl, rfl, rfl, rfl⟩

/-- Three bytes placed in a row (log 7). -/
def placeThree (a : Word) (b0 b1 b2 : Byte) (s : State) : State :=
  placeByte (a + 2) b2 (placeByte (a + 1) b1 (placeByte a b0 s))

/-- A table word is placed as three bytes in a row from PC on (log 7). -/
theorem withFetchWord_eq (s : State) (nbits w : Nat) : s.withFetchWord nbits w = placeThree (readyToFetch s).pc
    (byteAt (w % 2 ^ nbits) 0) (byteAt (w % 2 ^ nbits) 1) (byteAt (w % 2 ^ nbits) 2) (readyToFetch s) := rfl

theorem placeThree_cpu (a : Word) (b0 b1 b2 : Byte) (s : State) : (placeThree a b0 b1 b2 s).halted = s.halted ∧
    (placeThree a b0 b1 b2 s).cyclesRemaining = s.cyclesRemaining ∧ (placeThree a b0 b1 b2 s).irqLine = s.irqLine ∧
    (placeThree a b0 b1 b2 s).nmiPending = s.nmiPending ∧ (placeThree a b0 b1 b2 s).pc = s.pc := by
  simp only [placeThree, placeByte_cpu, and_self]

theorem counted_placeThree (a : Word) (b0 b1 b2 : Byte) (s : State) :
    counted (placeThree a b0 b1 b2 s) = placeThree a b0 b1 b2 (counted s) := by
  simp only [placeThree, counted_placeByte]

/-- Three bytes placed in a row can be read where they were placed, with no effect (log 7). -/
theorem memRead_placeThree {s : State} (hs : s.memoriesOk) {a : Word} (h0 : placeable a = true) (h1 : placeable (a + 1) = true)
    (h2 : placeable (a + 2) = true) (b0 b1 b2 : Byte) :
    memRead a (placeThree a b0 b1 b2 s) = .ok (b0, placeThree a b0 b1 b2 s) ∧
      memRead (a + 1) (placeThree a b0 b1 b2 s) = .ok (b1, placeThree a b0 b1 b2 s) ∧
      memRead (a + 2) (placeThree a b0 b1 b2 s) = .ok (b2, placeThree a b0 b1 b2 s) := by
  have hs0 := placeByte_memoriesOk a b0 s hs
  have hs1 := placeByte_memoriesOk (a + 1) b1 _ hs0
  have ha1 : (a + 1).toNat = (a.toNat + 1) % 65536 := BitVec.toNat_add a 1
  have ha2 : (a + 2).toNat = (a.toNat + 2) % 65536 := BitVec.toNat_add a 2
  refine ⟨memRead_plainByte ?_, memRead_plainByte ?_, memRead_plainByte ?_⟩ <;> rw [placeThree]
  · rw [plainByte_placeByte_further hs1 h0 h2 (.inr ha2), plainByte_placeByte_further hs0 h0 h1 (.inl ha1),
      plainByte_placeByte_same hs h0]
  · rw [plainByte_placeByte_further hs1 h1 h2 (.inl (by omega)), plainByte_placeByte_same hs0 h1]
  · rw [plainByte_placeByte_same hs1 h2]

/-- The instruction of a table word is the one its three bytes make. -/
theorem decodeTableWord_eq {nbits w : Nat} {i : Instr} (h : decodeTableWord nbits w = some i) :
    i = decodeBytes (byteAt (w % 2 ^ nbits) 0) (byteAt (w % 2 ^ nbits) 1) (byteAt (w % 2 ^ nbits) 2) := by
  obtain ⟨more, hd⟩ := decode_bytes (byteAt (w % 2 ^ nbits) 0) (byteAt (w % 2 ^ nbits) 1) (byteAt (w % 2 ^ nbits) 2) []
  rw [decodeTableWord, hd] at h
  exact (Option.some.inj h).symm

end Sys2Proof.Machine

open Sys2Proof Sys2Proof.Machine Sys2Proof.Claims

/-- Settles O41: an instruction has the bytes of its cell, and BRK's fetch reads the first of its two only. -/
theorem fetchReadsTheInstructionBytes : Obligations.FetchReadsTheInstructionBytes := by
  intro s i hwf h
  by_cases hbrk : i = .brk
  · subst hbrk
    have hop := memRead_plainByte (h 0 Nat.two_pos (by omega))
    rw [BitVec.add_zero] at hop
    exact fetch_padded hop rfl
  · exact fetch_cellBytes (encode_cellBytes hwf) fun k hk => memRead_plainByte (h k hk fun hc => hbrk hc.1)

/-- Settles O42: each of the three bytes stands where it was placed, since the others are placed at other addresses, and the dots
change neither them nor, with control bit 7 as `readyToFetch` leaves it, the NMI. -/
theorem placedWordIsFetchedNext : Obligations.PlacedWordIsFetchedNext := by
  intro s nbits w i hs hw
  obtain ⟨hrun, hcycles, hirq, -, hmem⟩ := readyToFetch_running s
  obtain ⟨h0, h1, h2⟩ := readyToFetch_placeable s
  obtain ⟨hpc, -, -, hirq', -, -, -, -, hnmi⟩ := counted_cpu (readyToFetch s)
  obtain ⟨hop, hb1, hb2⟩ := memRead_placeThree (counted_memoriesOk (hmem hs)) h0 h1 h2 (byteAt (w % 2 ^ nbits) 0)
    (byteAt (w % 2 ^ nbits) 1) (byteAt (w % 2 ^ nbits) 2)
  rw [decodeTableWord_eq hw, withFetchWord_eq, atBoundary_eq_counted]
  simp only [counted_placeThree, noInterrupt, placeThree_cpu]
  refine ⟨hrun, hcycles, ⟨hnmi.trans (threeDots_readyToFetch_nmiPending s), .inl (hirq'.trans hirq)⟩, fetch_bytes ?_ ?_ ?_⟩ <;>
    simp only [placeThree_cpu, hpc]
  · exact hop
  · exact hb1
  · exact hb2
end

section
/-! SUPPORT. The two resets (70_reset_and_hazards.md R400, R401): PC comes from the reset vector, and pattern RAM is cleared by the
cold one. -/

namespace Sys2Proof.Machine

open Sys2Proof.Claims

/-- A warm reset loads PC with two bus reads of the reset vector (70_reset_and_hazards.md R400, R401). -/
theorem warmReset_pc (s : State) : ∃ vlo vhi, memRead 0xFFFC (warmReset s) = .ok (vlo, warmReset s) ∧
    memRead 0xFFFD (warmReset s) = .ok (vhi, warmReset s) ∧ (warmReset s).pc = word vlo vhi :=
  ⟨_, _, memRead_rom _ (by decide), memRead_rom _ (by decide), (word_eq_wordOf _ _).symm⟩

/-- A cold reset touches the cartridge's pattern data only (70_reset_and_hazards.md R400). -/
theorem clearPatternRam_eq (c : Cartridge) : c.clearPatternRam = { c with chr := c.clearPatternRam.chr } := by
  unfold Cartridge.clearPatternRam
  split <;> rfl

/-- Pattern RAM is cleared. -/
theorem clearPatternRam_ram {c : Cartridge} (h : c.pattern = .ram) : c.clearPatternRam.chr = [] := by
  rw [Cartridge.clearPatternRam, h]

/-- Pattern ROM stays. -/
theorem clearPatternRam_rom {c : Cartridge} (h : c.pattern ≠ .ram) : c.clearPatternRam = c := by
  unfold Cartridge.clearPatternRam
  split
  · rfl
  · next hram => exact absurd hram h

end Sys2Proof.Machine

open Sys2Proof.Machine Sys2Proof.Claims

/-- Settles O44: by the fields of `warmReset`, with PC from its vector. -/
theorem warmResetKeepsTheMemories : Obligations.WarmResetKeepsTheMemories := fun s =>
  ⟨warmReset_pc s, rfl, rfl, rfl, rfl, rfl, rfl, rfl, rfl, rfl, rfl, rfl, rfl, warmReset_ram s, rfl, rfl, rfl, rfl⟩

/-- Settles O43: a cold reset is a warm one after the memories are cleared. -/
theorem coldResetZeroesAndLoadsTheVector : Obligations.ColdResetZeroesAndLoadsTheVector := by
  intro s
  refine ⟨warmReset_pc (clearMemories s), rfl, rfl, rfl, rfl, rfl, rfl, rfl, rfl, rfl, rfl, rfl, rfl,
    fun k => ⟨rfl, rfl, rfl, rfl⟩, fun hram k => ?ram, rfl, rfl, clearPatternRam_eq s.cart, fun hrom => clearPatternRam_rom hrom, rfl⟩
  case ram =>
    change s.cart.clearPatternRam.chr.get k = 0
    rw [clearPatternRam_ram hram, Memory.get_nil]
end

section
/-! SUPPORT. Loading a cartridge image: the header's fields as numbers, and when a load answers (20_memory.md R79 to R81). -/

namespace Sys2Proof.Machine

open Sys2Proof.Claims

/-- Both nibbles of the mapper identifier are zero for the baseline mapper (20_memory.md R79, R80). -/
theorem imageMapper_eq_zero_iff (image : List Byte) :
    imageMapper image = 0 ↔ imageByte image 6 / 16 = 0 ∧ imageByte image 7 / 16 = 0 := by
  rw [imageMapper, imageByte, imageByte]
  omega

/-- The statements' PRG offset is the model's (20_memory.md R79). -/
theorem imagePrgStart_eq (image : List Byte) : imagePrgStart image = prgStart image := by
  rw [imagePrgStart, prgStart, getLsbD_eq_digit, imageByte]
  simp only [decide_eq_true_eq]
  rfl

/-- The image is one that can be loaded (20_memory.md R80; log 14). -/
def loadable (image : List Byte) : Prop :=
  image.take 4 = imageMagic ∧ 16 ≤ image.length ∧ imageMapper image = 0 ∧ (imageByte image 4 = 1 ∨ imageByte image 4 = 2) ∧
    prgStart image + 16384 * imageByte image 4 + 8192 * imageByte image 5 ≤ image.length

/-- The size of program ROM by the image's bank count (20_memory.md R80). -/
def imagePrgSize (image : List Byte) : PrgSize := if imageByte image 4 = 1 then .banks1 else .banks2

/-- Exactly the loadable images are loaded (20_memory.md R79, R80). -/
theorem loadImage_ok_iff (image : List Byte) (c : Cartridge) :
    loadImage image = .ok c ↔ loadable image ∧ c = imageCartridge image (imagePrgSize image) := by
  have hsize : (if (image.getD 4 0).toNat = 1 then .banks1 else .banks2) = imagePrgSize image := rfl
  rw [loadImage, hsize, loadable, imagePrgStart_eq, imagePrgLength, imageChrLength]
  simp only [imageByte]
  constructor
  · intro h
    split_ifs at h with hmagic hlen hmapper hbanks hbody
    cases h
    exact ⟨⟨not_not.1 hmagic, by omega, not_not.1 hmapper, by omega, by omega⟩, rfl⟩
  · rintro ⟨⟨hmagic, hlen, hmapper, hbanks, hbody⟩, rfl⟩
    rw [if_neg (not_not_intro hmagic), if_neg (by omega), if_neg (not_not_intro hmapper), if_neg (by omega), if_neg (by omega)]

/-- A section of an image reads as the image's bytes from its start on. -/
theorem get_ofBytes_section (image : List Byte) {start len k : Nat} (hk : k < len) :
    Memory.get (Memory.ofBytes ((image.drop start).take len) 0) k = image.getD (start + k) 0 := by
  have h := Memory.get_ofBytes ((image.drop start).take len) 0 k
  rw [Nat.zero_add] at h
  rw [h, List.getD_eq_getElem?_getD, List.getElem?_take_of_lt hk, List.getElem?_drop, List.getD_eq_getElem?_getD]

end Sys2Proof.Machine

open Sys2Proof Sys2Proof.Machine Sys2Proof.Claims

/-- Settles O46: the loadable images are the statement's, and a loaded cartridge is its image's sections. -/
theorem badImagesAreNotLoaded : Obligations.BadImagesAreNotLoaded := by
  refine ⟨fun image c h => ?_, fun image hmagic h6 h7 hbanks hlen hbody => ?_⟩
  · obtain ⟨⟨hmagic, -, hmapper, hbanks, hbody⟩, rfl⟩ := (loadImage_ok_iff image c).1 h
    obtain ⟨h6, h7⟩ := (imageMapper_eq_zero_iff image).1 hmapper
    refine ⟨hmagic, h6, h7, ?size, hbody, fun k hk => ?prg, fun k hk => ?chr, ?pattern, ?mirroring⟩
    case size =>
      rcases hbanks with hb | hb
      · exact .inl ⟨if_pos hb, hb⟩
      · exact .inr ⟨if_neg (by omega), hb⟩
    case prg =>
      rw [← imagePrgStart_eq]
      exact get_ofBytes_section image hk
    case chr =>
      rw [← imagePrgStart_eq, ← get_ofBytes_section image hk, ← List.drop_drop]
      rfl
    case pattern =>
      have hzero : image.getD 5 0 = 0 ↔ imageByte image 5 = 0 := (BitVec.toNat_inj (y := 0)).symm
      rw [← hzero]
      exact ite_eq_left_iff.trans (imp_iff_not nofun |>.trans not_not)
    case mirroring =>
      have hbit : (image.getD 6 0).getLsbD 0 = true ↔ imageByte image 6 % 2 = 1 := by
        rw [getLsbD_eq_digit, decide_eq_true_iff, Nat.pow_zero, Nat.div_one, imageByte]
      rw [← hbit]
      exact ite_eq_left_iff.trans (imp_iff_not nofun |>.trans not_not)
  · exact ⟨_, (loadImage_ok_iff image _).2 ⟨⟨hmagic, hlen, (imageMapper_eq_zero_iff image).2 ⟨h6, h7⟩, hbanks, hbody⟩, rfl⟩⟩
end

section
/-! SUPPORT. OAM DMA: the model's copy from the front is the statement's from the back, what it changes, and its bytes where the page's
reads are known (60_exceptions.md R363). -/

namespace Sys2Proof.Machine

open Sys2Proof.Claims

/-- The source address of byte `n` of a page. -/
theorem wordOf_ofNat (d : Byte) {n : Nat} (hn : n < 256) : wordOf (BitVec.ofNat 8 n) d = BitVec.ofNat 16 (d.toNat * 256 + n) := by
  have hd := d.isLt
  apply BitVec.eq_of_toNat_eq
  rw [wordOf_toNat, BitVec.toNat_ofNat, BitVec.toNat_ofNat]
  omega

/-- Bus reads and OAM writes, which are all that the copy makes, leave oam_addr alone. -/
theorem ReadFrom.oamAddr {s t : State} (h : ReadFrom s t) : t.ppu.oamAddr = s.ppu.oamAddr := by
  obtain ⟨vb, w, v, rb, h0, h1, n, rfl, -⟩ := h.touched
  rfl

/-- One more byte of the statement's copy, where its read answers. -/
theorem copied_succ {d v : Byte} {n : Nat} {s t u : State} (h : copied d n s = .ok t)
    (hr : memRead (BitVec.ofNat 16 (d.toNat * 256 + n)) t = .ok (v, u)) : copied d (n + 1) s =
      .ok { u with ppu := { u.ppu with oam := u.ppu.oam.set ((s.ppu.oamAddr.toNat + n) % 256) v } } := by
  simp only [copied, h, hr]

/-- One more byte of the statement's copy, where its read is refused. -/
theorem copied_succ_refused {d : Byte} {n : Nat} {s t : State} {r : Refusal} (h : copied d n s = .ok t)
    (hr : memRead (BitVec.ofNat 16 (d.toNat * 256 + n)) t = .error r) : copied d (n + 1) s = .error r := by
  simp only [copied, h, hr]

/-- A refused copy stays refused. -/
theorem copied_refused {d : Byte} {n : Nat} {s : State} {r : Refusal} (h : copied d n s = .error r) (m : Nat) :
    copied d (n + m) s = .error r := by
  induction m with
  | zero => exact h
  | succ m ih =>
    rw [← Nat.add_assoc]
    simp only [copied, ih]

/-- From the state after `n` bytes the model's copy goes on as the statement's does. -/
theorem copied_add {d : Byte} {s : State} (m : Nat) : ∀ {n : Nat} {t : State}, n + m ≤ 256 → copied d n s = .ok t →
    t.ppu.oamAddr = s.ppu.oamAddr → copied d (n + m) s = dmaCopy d m (BitVec.ofNat 8 n) t := by
  induction m with
  | zero => exact fun _ h _ => h
  | succ m ih =>
    intro n t hn h ha
    have hindex : (s.ppu.oamAddr.toNat + n) % 256 = (t.ppu.oamAddr + BitVec.ofNat 8 n).toNat := by
      rw [ha, BitVec.toNat_add, BitVec.toNat_ofNat]
      omega
    have hnext : BitVec.ofNat 8 n + 1 = BitVec.ofNat 8 (n + 1) := (BitVec.ofNat_add n 1).symm
    rw [dmaCopy, wordOf_ofNat d (by omega), ← Nat.add_assoc, Nat.add_right_comm]
    cases hr : memRead (BitVec.ofNat 16 (d.toNat * 256 + n)) t with
    | error r => exact copied_refused (copied_succ_refused h hr) m
    | ok p =>
      have hsucc := copied_succ h hr
      rw [hindex] at hsucc
      simp only [hnext]
      exact ih (by omega) hsucc ((memRead_readFrom hr).oamAddr.trans ha)

/-- The model's copy of a page is the statement's (60_exceptions.md R363). -/
theorem dmaCopy_eq_copied (d : Byte) (s : State) : dmaCopy d 256 0 s = copied d 256 s :=
  (copied_add 256 (n := 0) (by omega) rfl rfl).symm

/-- The stall with its parity term (60_exceptions.md R363; log 12). -/
theorem dmaStall_eq (n : Nat) : 513 + n % 2 = if n % 2 = 1 then 514 else 513 := by
  split <;> omega

/-- A bus write to $4014 is an OAM DMA (60_exceptions.md R361). -/
theorem memWrite_dma (d : Byte) (s : State) : memWrite 0x4014 d s = oamDma d s := by
  rw [memWrite_io d s (by decide) (by decide), ioWrite, if_pos rfl]

/-- An OAM DMA whose copy completes ends with the stall. -/
theorem memWrite_dma_copied {d : Byte} {s t : State} (h : copied d 256 s = .ok t) :
    memWrite 0x4014 d s = .ok { t with dmaStall := if s.cyclesTotal % 2 = 1 then 514 else 513 } := by
  rw [← dmaCopy_eq_copied] at h
  have hcycles : t.cyclesTotal = s.cyclesTotal := by
    obtain ⟨ram, q, k, chr, stall, n, rfl, -⟩ := (dmaCopy_written h).touched
    rfl
  simp only [memWrite_dma, oamDma, h, dmaStall_eq, hcycles]

/-- An OAM DMA whose copy is refused is refused. -/
theorem memWrite_dma_refused {d : Byte} {s : State} {r : Refusal} (h : copied d 256 s = .error r) :
    memWrite 0x4014 d s = .error r := by
  rw [← dmaCopy_eq_copied] at h
  simp only [memWrite_dma, oamDma, h]

/-- What bus reads and writes of OAM change. -/
def dmaTouched (s : State) (vb w : Bool) (v : BitVec 15) (rb : Byte) (oam : Memory) (h0 h1 : Byte) (n : Nat) : State :=
  { s with
    ppu := { s.ppu with vblank := vb, w := w, v := v, readBuffer := rb, oam := oam }
    pads := { s.pads with shift0 := h0, shift1 := h1 }
    openDraws := n }

/-- Besides OAM the copy changes only what bus reads change (60_exceptions.md R363). -/
theorem copied_touched {d : Byte} {n : Nat} {s t : State} (h : copied d n s = .ok t) :
    ∃ vb w v rb oam h0 h1 draws, t = dmaTouched s vb w v rb oam h0 h1 draws := by
  induction n generalizing t with
  | zero => cases h; exact ⟨_, _, _, _, _, _, _, _, rfl⟩
  | succ n ih =>
    cases hn : copied d n s with
    | error r => rw [copied_refused hn 1] at h; cases h
    | ok u =>
      obtain ⟨vb, w, v, rb, oam, h0, h1, draws, rfl⟩ := ih hn
      cases hr : memRead (BitVec.ofNat 16 (d.toNat * 256 + n)) (dmaTouched s vb w v rb oam h0 h1 draws) with
      | error r => rw [copied_succ_refused hn hr] at h; cases h
      | ok p =>
        obtain ⟨vb, w, v, rb, h0, h1, m, hp, -⟩ := (memRead_readFrom hr).touched
        rw [copied_succ hn hr, hp] at h
        cases h
        exact ⟨_, _, _, _, _, _, _, _, rfl⟩

/-- The state after a copy whose reads change at most the count of draws. -/
def dmaState (s : State) (oam : Memory) (draws : Nat) : State := { s with ppu := { s.ppu with oam := oam }, openDraws := draws }

/-- An OAM DMA whose reads change at most the count of draws. -/
theorem memWrite_dma_state {d : Byte} {s : State} {oam : Memory} {draws : Nat} (h : copied d 256 s = .ok (dmaState s oam draws)) :
    memWrite 0x4014 d s = .ok { s with
      ppu := { s.ppu with oam := oam }, openDraws := draws, dmaStall := if s.cyclesTotal % 2 = 1 then 514 else 513 } :=
  memWrite_dma_copied h

/-- OAM after the first `n` bytes of a copy of the bytes `bytes`, from index `base` on, wrapping. -/
def oamFill (bytes : Nat → Byte) (base : Nat) (oam : Memory) : Nat → Memory
  | 0 => oam
  | n + 1 => (oamFill bytes base oam n).set ((base + n) % 256) (bytes n)

/-- The copied bytes stand in OAM, each at its own index (60_exceptions.md R363). -/
theorem oamFill_get {bytes : Nat → Byte} {base : Nat} {oam : Memory} (hwf : oam.wf) {n : Nat} (hn : n ≤ 256) :
    (oamFill bytes base oam n).wf ∧ ∀ i < n, (oamFill bytes base oam n).get ((base + i) % 256) = bytes i := by
  induction n with
  | zero => exact ⟨hwf, nofun⟩
  | succ n ih =>
    obtain ⟨hwf', hget⟩ := ih (by omega)
    refine ⟨Memory.set_wf _ _ _ hwf', fun i hi => ?_⟩
    rw [oamFill, Memory.get_set _ hwf']
    by_cases hin : i = n
    · rw [if_pos (by rw [hin]), hin]
    · rw [if_neg (by omega), hget i (by omega)]

/-- A copy whose reads answer known bytes and change at most the count of draws, by `step` each. -/
theorem copied_of_reads {d : Byte} {s : State} {bytes : Nat → Byte} {step : Nat}
    (h : ∀ k < 256, ∀ oam, memRead (BitVec.ofNat 16 (d.toNat * 256 + k)) (dmaState s oam (s.openDraws + step * k)) =
      .ok (bytes k, dmaState s oam (s.openDraws + step * (k + 1)))) {n : Nat} (hn : n ≤ 256) :
    copied d n s = .ok (dmaState s (oamFill bytes s.ppu.oamAddr.toNat s.ppu.oam n) (s.openDraws + step * n)) := by
  induction n with
  | zero => rfl
  | succ n ih =>
    rw [copied_succ (ih (by omega)) (h n (by omega) _)]
    rfl

/-- A page of RAM or program ROM is plain memory. -/
theorem plainByte_page (s : State) {d : Byte} (hd : d.toNat < 0x20 ∨ 0x80 ≤ d.toNat) {k : Nat} (hk : k < 256) :
    plainByte s (BitVec.ofNat 16 (d.toNat * 256 + k)) = some ((plainByte s (BitVec.ofNat 16 (d.toNat * 256 + k))).getD 0) := by
  have hlt := d.isLt
  have ha : (BitVec.ofNat 16 (d.toNat * 256 + k)).toNat = d.toNat * 256 + k := Nat.mod_eq_of_lt (by omega)
  rcases hd with hd | hd
  · rw [plainByte_ram (by omega), Option.getD_some]
  · rw [plainByte_rom (by omega), Option.getD_some]

end Sys2Proof.Machine

open Sys2Proof Sys2Proof.Machine Sys2Proof.Claims

/-- Settles O30: the copy is the statement's; it is refused where a port's read is, and its bytes are those the page's reads answer. -/
theorem oamDmaCopiesAPage : Obligations.OamDmaCopiesAPage := by
  refine ⟨fun s d => ?copy, fun s d hmeaning => ?completes, fun s d hrenders hlo hhi => ?refused, fun s d hwf hpage => ?memory,
    fun s d hwf hlo hhi => ?draws⟩
  case copy =>
    cases h : copied d 256 s with
    | ok t => exact memWrite_dma_copied h
    | error r => exact memWrite_dma_refused h
  case completes =>
    cases h : copied d 256 s with
    | ok t =>
      refine ⟨_, memWrite_dma_copied h, ?_⟩
      obtain ⟨vb, w, v, rb, oam, h0, h1, draws, rfl⟩ := copied_touched h
      rfl
    | error r =>
      have hr := memWrite_dma_refused h
      rw [memWrite_dma, oamDma_error_iff, ← renders_iff_rendering] at hr
      exact absurd ⟨hr.1, hr.2.1, Nat.lt_succ_of_le hr.2.2.1⟩ hmeaning
  case refused =>
    rw [memWrite_dma, oamDma_error_iff, ← renders_iff_rendering]
    exact ⟨hrenders, hlo, Nat.le_of_lt_succ hhi, rfl⟩
  case memory =>
    have hread : ∀ k < 256, ∀ oam, memRead (BitVec.ofNat 16 (d.toNat * 256 + k)) (dmaState s oam (s.openDraws + 0 * k)) =
        .ok ((plainByte s (BitVec.ofNat 16 (d.toNat * 256 + k))).getD 0, dmaState s oam (s.openDraws + 0 * (k + 1))) := by
      intro k hk oam
      rw [Nat.zero_mul, Nat.zero_mul, memRead_plainByte (s := dmaState s oam (s.openDraws + 0)) (plainByte_page s hpage hk)]
    have hcopy := copied_of_reads hread (n := 256) le_rfl
    rw [Nat.zero_mul, Nat.add_zero] at hcopy
    refine ⟨_, memWrite_dma_state hcopy, fun i hi => ?_⟩
    rw [(oamFill_get hwf le_rfl).2 i hi]
    exact plainByte_page s hpage hi
  case draws =>
    have hread : ∀ k < 256, ∀ oam, memRead (BitVec.ofNat 16 (d.toNat * 256 + k)) (dmaState s oam (s.openDraws + 1 * k)) =
        .ok (Config.openBus (s.openDraws + k) (BitVec.ofNat 16 (d.toNat * 256 + k)),
          dmaState s oam (s.openDraws + 1 * (k + 1))) := by
      intro k hk oam
      have ha : (BitVec.ofNat 16 (d.toNat * 256 + k)).toNat = d.toNat * 256 + k := Nat.mod_eq_of_lt (by omega)
      rw [Nat.one_mul, Nat.one_mul, memRead_open _ (by omega) (by omega)]
      rfl
    have hcopy := copied_of_reads hread (n := 256) le_rfl
    exact ⟨_, memWrite_dma_state hcopy, fun i hi => (oamFill_get hwf le_rfl).2 i hi⟩
end

section
/-! SUPPORT. Every instruction is one of the access classes on the effect of its mnemonic (40_addressing.md R131 to R144), or a jump,
call, return, software interrupt or undefined opcode with a meaning of its own. -/

namespace Sys2Proof.Machine

open Sys2Proof.Claims

/-- The kinds of mnemonic that share an access class. -/
inductive MnemonicKind where
  | operand | store | modify | branch | implied | control
  deriving DecidableEq

/-- The kind of a mnemonic (40_addressing.md R131 to R144). -/
def mnemonicKind : Mnemonic → MnemonicKind
  | .lda | .ldx | .ldy | .adc | .sbc | .and | .ora | .eor | .cmp | .cpx | .cpy | .bit => .operand
  | .sta | .stx | .sty => .store
  | .inc | .dec | .asl | .lsr | .rol | .ror => .modify
  | .bcc | .bcs | .beq | .bmi | .bne | .bpl | .bvc | .bvs => .branch
  | .jmp | .jsr | .rts | .brk | .rti | .illegal => .control
  | _ => .implied

/-- The effect of a mnemonic that takes an operand byte, immediate or read (41_load_store_transfer.md R160 to R162,
42_arith_logic.md R181 to R189). -/
def operandEffect : Mnemonic → Byte → State → State
  | .lda => State.writeA
  | .ldx => State.writeX
  | .ldy => State.writeY
  | .adc => adc
  | .sbc => sbc
  | .and => andA
  | .ora => ora
  | .eor => eor
  | .cmp => cmp
  | .cpx => cpx
  | .cpy => cpy
  | .bit => bit
  | _ => fun _ s => s

/-- The byte that a store writes (41_load_store_transfer.md R163 to R165). -/
def storedByte : Mnemonic → State → Byte
  | .sta => State.a
  | .stx => State.x
  | _ => State.y

/-- The operation of a read-modify-write mnemonic on a byte (42_arith_logic.md R190, R191, 43_shift_rotate.md R211 to R214). -/
def byteOperation : Mnemonic → Byte → Status → Byte × Status
  | .inc => increment
  | .dec => decrement
  | .asl => shiftLeft
  | .lsr => shiftRight
  | .rol => rotateLeft
  | _ => rotateRight

/-- The condition of a branch (45_control.md R234 to R241). -/
def branchTaken : Mnemonic → State → Bool
  | .bcc => fun s => !s.p.c
  | .bcs => fun s => s.p.c
  | .beq => fun s => s.p.z
  | .bmi => fun s => s.p.n
  | .bne => fun s => !s.p.z
  | .bpl => fun s => !s.p.n
  | .bvc => fun s => !s.p.v
  | _ => fun s => s.p.v

/-- The effect of a mnemonic without operand (41_load_store_transfer.md R166 to R171, 42_arith_logic.md R192 to R195, 44_stack.md,
46_flags_misc.md). -/
def impliedEffect : Mnemonic → State → State
  | .tax => fun s => s.writeX s.a
  | .tay => fun s => s.writeY s.a
  | .txa => fun s => s.writeA s.x
  | .tya => fun s => s.writeA s.y
  | .tsx => fun s => s.writeX s.sp
  | .txs => fun s => { s with sp := s.x }
  | .inx => fun s => s.writeX (s.x + 1)
  | .iny => fun s => s.writeY (s.y + 1)
  | .dex => fun s => s.writeX (s.x - 1)
  | .dey => fun s => s.writeY (s.y - 1)
  | .pha => fun s => s.push s.a
  | .php => fun s => s.push (pack s.p true)
  | .pla => fun s => s.popped.writeA s.top
  | .plp => fun s => s.popped.withP (unpack s.top)
  | .clc => fun s => s.withP { s.p with c := false }
  | .cld => fun s => s.withP { s.p with d := false }
  | .cli => fun s => s.withP { s.p with i := false }
  | .clv => fun s => s.withP { s.p with v := false }
  | .sec => fun s => s.withP { s.p with c := true }
  | .sed => fun s => s.withP { s.p with d := true }
  | .sei => fun s => s.withP { s.p with i := true }
  | _ => fun s => s

/-- The operand form as the instruction's mode (40_addressing.md R130). -/
def MemMode.mode : MemMode → Mode
  | .zp _ => .zp
  | .zpx _ => .zpx
  | .zpy _ => .zpy
  | .abs _ => .abs
  | .abx _ => .abx
  | .aby _ => .aby
  | .izx _ => .izx
  | .izy _ => .izy

/-- What the tables say of an instruction: its mnemonic's kind, its mode, the operand forms it reads and stores at, and its base
cost (40_addressing.md R144, 70_reset_and_hazards.md R413). -/
structure Tabled (i : Instr) (kind : MnemonicKind) (mode : Mode) (reads stores : Option MemMode) (base : Nat) : Prop where
  kind_eq : mnemonicKind i.mnemonic = kind
  mode_eq : i.mode = mode
  reads_eq : readForm i = reads
  stores_eq : storeForm i = stores
  base_eq : tableCost (opcodeOf i) = base

/-- The meaning of an instruction by its access class. -/
inductive ExecClass (i : Instr) : Prop
  | imm (v : Byte) (tabled : Tabled i .operand .imm none none 2)
      (meaning : ∀ s, exec i s = readImm v (operandEffect i.mnemonic) s)
  | read (m : MemMode) (base : Nat) (tabled : Tabled i .operand m.mode (some m) none base)
      (meaning : ∀ s, exec i s = readMem m base (operandEffect i.mnemonic) s)
  | write (m : MemMode) (base : Nat) (tabled : Tabled i .store m.mode none (some m) base)
      (meaning : ∀ s, exec i s = writeMem m base (storedByte i.mnemonic s) s)
  | modify (m : MemMode) (base : Nat) (tabled : Tabled i .modify m.mode none (some m) base)
      (meaning : ∀ s, exec i s = modifyMem m base (byteOperation i.mnemonic) s)
  | acc (tabled : Tabled i .modify .acc none none 2) (meaning : ∀ s, exec i s = modifyAcc (byteOperation i.mnemonic) s)
  | branch (off : Byte) (tabled : Tabled i .branch .rel none none 2)
      (meaning : ∀ s, exec i s = branch (branchTaken i.mnemonic s) off s)
  | implied (base : Nat) (tabled : Tabled i .implied .imp none none base)
      (meaning : ∀ s, exec i s = implied base (impliedEffect i.mnemonic) s)
  | jmpAbs (a : Word) (eq : i = .jmpAbs a)
  | jmpInd (a : Word) (eq : i = .jmpInd a)
  | jsr (a : Word) (eq : i = .jsrAbs a)
  | rts (eq : i = .rts)
  | brk (eq : i = .brk)
  | rti (eq : i = .rti)
  | illegal (op : Byte) (eq : i = .illegal op)

/-- An instruction's table entry, by the opcode byte it encodes to. -/
theorem tabled_of_encode {i : Instr} {op : Byte} {operands : List Byte} {kind : MnemonicKind} {mode : Mode}
    {reads stores : Option MemMode} {base : Nat} (hop : encode i = op :: operands) (hkind : mnemonicKind i.mnemonic = kind)
    (hmode : i.mode = mode) (hreads : readForm i = reads) (hstores : storeForm i = stores) (hbase : tableCost op = base) :
    Tabled i kind mode reads stores base :=
  ⟨hkind, hmode, hreads, hstores, by rw [opcodeOf_eq hop, hbase]⟩

/-- Every instruction is of a class, or has a meaning of its own. -/
theorem exec_class (i : Instr) : ExecClass i := by
  cases i
  case ldaImm v | ldxImm v | ldyImm v | adcImm v | sbcImm v | andImm v | oraImm v | eorImm v | cmpImm v | cpxImm v | cpyImm v =>
    exact .imm v (tabled_of_encode rfl rfl rfl rfl rfl rfl) fun _ => rfl
  case staZp | staZpx | staAbs | staAbx | staAby | staIzx | staIzy | stxZp | stxZpy | stxAbs | styZp | styZpx | styAbs =>
    exact .write _ _ (tabled_of_encode rfl rfl rfl rfl rfl rfl) fun _ => rfl
  case incZp | incZpx | incAbs | incAbx | decZp | decZpx | decAbs | decAbx | aslZp | aslZpx | aslAbs | aslAbx | lsrZp | lsrZpx |
      lsrAbs | lsrAbx | rolZp | rolZpx | rolAbs | rolAbx | rorZp | rorZpx | rorAbs | rorAbx =>
    exact .modify _ _ (tabled_of_encode rfl rfl rfl rfl rfl rfl) fun _ => rfl
  case aslAcc | lsrAcc | rolAcc | rorAcc =>
    exact .acc (tabled_of_encode rfl rfl rfl rfl rfl rfl) fun _ => rfl
  case bcc off | bcs off | beq off | bmi off | bne off | bpl off | bvc off | bvs off =>
    exact .branch off (tabled_of_encode rfl rfl rfl rfl rfl rfl) fun _ => rfl
  case tax | tay | txa | tya | tsx | txs | inx | iny | dex | dey | pha | php | pla | plp | clc | cld | cli | clv | sec | sed |
      sei | nop =>
    exact .implied _ (tabled_of_encode rfl rfl rfl rfl rfl rfl) fun _ => rfl
  case jmpAbs a => exact .jmpAbs a rfl
  case jmpInd a => exact .jmpInd a rfl
  case jsrAbs a => exact .jsr a rfl
  case rts => exact .rts rfl
  case brk => exact .brk rfl
  case rti => exact .rti rfl
  case illegal op => exact .illegal op rfl
  all_goals exact .read _ _ (tabled_of_encode rfl rfl rfl rfl rfl rfl) fun _ => rfl

end Sys2Proof.Machine
end

section
/-! SUPPORT. What an instruction does to the CPU's registers: bus accesses leave them alone, so its effect is its mnemonic's
(10_state.md sections 2 to 4). -/

namespace Sys2Proof.Machine

open Sys2Proof.Claims

/-- The registers A, X, Y, SP and P agree. -/
def SameRegisters (s t : State) : Prop := t.a = s.a ∧ t.x = s.x ∧ t.y = s.y ∧ t.sp = s.sp ∧ t.p = s.p

theorem ReadFrom.sameRegisters {s t : State} (h : ReadFrom s t) : SameRegisters s t := by
  obtain ⟨vb, w, v, rb, h0, h1, n, rfl, -⟩ := h.touched
  exact ⟨rfl, rfl, rfl, rfl, rfl⟩

theorem WrittenFrom.sameRegisters {s t : State} (h : WrittenFrom s t) : SameRegisters s t := by
  obtain ⟨ram, q, k, chr, stall, n, rfl, -⟩ := h.touched
  exact ⟨rfl, rfl, rfl, rfl, rfl⟩

/-- The states whose registers an instruction can leave, by the kind of its mnemonic. -/
inductive RegisterEffect (i : Instr) (s : State) : State → Prop
  | operand (v : Byte) (kind : mnemonicKind i.mnemonic = .operand) : RegisterEffect i s (operandEffect i.mnemonic v s)
  | same (kind : mnemonicKind i.mnemonic = .store ∨ mnemonicKind i.mnemonic = .branch ∨ i.mnemonic = .jmp ∨
      i.mnemonic = .illegal) : RegisterEffect i s s
  | modify (v : Byte) (kind : mnemonicKind i.mnemonic = .modify) :
      RegisterEffect i s (s.withP (byteOperation i.mnemonic v s.p).2)
  | acc (mode : i.mode = .acc) (kind : mnemonicKind i.mnemonic = .modify) : RegisterEffect i s
      { s with a := (byteOperation i.mnemonic s.a s.p).1, p := (byteOperation i.mnemonic s.a s.p).2 }
  | implied (kind : mnemonicKind i.mnemonic = .implied) : RegisterEffect i s (impliedEffect i.mnemonic s)
  | jsr (ret : Word) (mnemonic : i.mnemonic = .jsr) : RegisterEffect i s (s.pushWord ret)
  | rts (mnemonic : i.mnemonic = .rts) : RegisterEffect i s s.popped.popped
  | brk (ret : Word) (mnemonic : i.mnemonic = .brk) : RegisterEffect i s (enterInterrupt ret true Config.irqVector s)
  | rti (mnemonic : i.mnemonic = .rti) : RegisterEffect i s (returnFromInterrupt 6 s)

/-- An operand mnemonic's effect depends on the registers only. -/
theorem operandEffect_sameRegisters (mn : Mnemonic) (v : Byte) {s u : State} (h : ReadFrom s u) :
    SameRegisters (operandEffect mn v s) (operandEffect mn v u) := by
  obtain ⟨vb, w, v', rb, h0, h1, n, rfl, -⟩ := h.touched
  cases mn <;> exact ⟨rfl, rfl, rfl, rfl, rfl⟩

/-- What the indirect jump can do (45_control.md R230). -/
theorem jmpInd_next {a : Word} {s t : State} (h : exec (.jmpInd a) s = .next t) :
    ∃ target u, readPageWord a s = .ok (target, u) ∧ t = u.retire target 5 := by
  change execJmpInd a s = .next t at h
  unfold execJmpInd at h
  split at h
  · cases h
  · next target u hr => cases h; exact ⟨target, u, hr, rfl⟩

/-- What a branch can do (45_control.md R233). -/
theorem branch_next {c : Bool} {off : Byte} {s t : State} (h : branch c off s = .next t) :
    ∃ pc cost, t = s.retire pc cost ∧ (cost = 2 ∨ cost = 3 ∨ cost = 4) := by
  unfold branch at h
  split at h <;> cases h
  · refine ⟨_, _, rfl, .inr ?_⟩
    cases otherPage (s.pc + 2) (branchTarget off s)
    · exact .inl rfl
    · exact .inr rfl
  · exact ⟨_, _, rfl, .inl rfl⟩

/-- An instruction leaves the registers as its mnemonic does. -/
theorem exec_registers {i : Instr} {s t : State} (h : exec i s = .next t) : ∃ r, RegisterEffect i s r ∧ SameRegisters r t := by
  have hrefl : ∀ r : State, SameRegisters r r := fun r => ⟨rfl, rfl, rfl, rfl, rfl⟩
  cases exec_class i with
  | imm v tabled meaning =>
    rw [meaning] at h
    cases h
    exact ⟨_, .operand v tabled.kind_eq, hrefl _⟩
  | read m base tabled meaning =>
    rw [meaning] at h
    obtain ⟨v, u, hr, rfl⟩ := readMem_next h
    exact ⟨_, .operand v tabled.kind_eq, operandEffect_sameRegisters _ _ (memRead_readFrom hr)⟩
  | write m base tabled meaning =>
    rw [meaning] at h
    obtain ⟨u, hw, rfl⟩ := writeMem_next h
    exact ⟨_, .same (.inl tabled.kind_eq), (memWrite_written hw).sameRegisters⟩
  | modify m base tabled meaning =>
    rw [meaning] at h
    obtain ⟨v, u, w, hr, hw, rfl⟩ := modifyMem_next h
    obtain ⟨ha, hx, hy, hsp, -⟩ := ((memRead_readFrom hr).written.trans (memWrite_written hw)).sameRegisters
    exact ⟨_, .modify v tabled.kind_eq, ha, hx, hy, hsp, rfl⟩
  | acc tabled meaning =>
    rw [meaning] at h
    cases h
    exact ⟨_, .acc tabled.mode_eq tabled.kind_eq, hrefl _⟩
  | branch off tabled meaning =>
    rw [meaning] at h
    obtain ⟨pc, cost, rfl, -⟩ := branch_next h
    exact ⟨_, .same (.inr (.inl tabled.kind_eq)), hrefl s⟩
  | implied base tabled meaning =>
    rw [meaning] at h
    cases h
    exact ⟨_, .implied tabled.kind_eq, hrefl _⟩
  | jmpAbs a eq => subst eq; cases h; exact ⟨_, .same (.inr (.inr (.inl rfl))), hrefl s⟩
  | jmpInd a eq =>
    subst eq
    obtain ⟨target, u, hr, rfl⟩ := jmpInd_next h
    exact ⟨_, .same (.inr (.inr (.inl rfl))), (readPageWord_readFrom hr).sameRegisters⟩
  | jsr a eq => subst eq; cases h; exact ⟨_, .jsr (s.pc + 2) rfl, hrefl _⟩
  | rts eq => subst eq; cases h; exact ⟨_, .rts rfl, hrefl _⟩
  | brk eq => subst eq; cases h; exact ⟨_, .brk (s.pc + 2) rfl, hrefl _⟩
  | rti eq => subst eq; cases h; exact ⟨_, .rti rfl, hrefl _⟩
  | illegal op eq => subst eq; cases h; exact ⟨_, .same (.inr (.inr (.inr rfl))), hrefl s⟩

/-- A, X and Y but for the mnemonics that write them (10_state.md R31 to R33). -/
def AxyKept (mn : Mnemonic) (s t : State) : Prop :=
  (mn ∉ [.lda, .pla, .txa, .tya, .adc, .sbc, .and, .ora, .eor] → t.a = s.a) ∧ (mn ∉ [.ldx, .tax, .tsx, .inx, .dex] → t.x = s.x) ∧
    (mn ∉ [.ldy, .tay, .iny, .dey] → t.y = s.y)

theorem operandEffect_axyKept (mn : Mnemonic) (v : Byte) (s : State) : AxyKept mn s (operandEffect mn v s) := by
  cases mn <;> simp [AxyKept, operandEffect, adc, sbc, andA, ora, eor, cmp, cpx, cpy, bit]

theorem impliedEffect_axyKept (mn : Mnemonic) (s : State) : AxyKept mn s (impliedEffect mn s) := by
  cases mn <;> simp [AxyKept, impliedEffect]

/-- The flags but for the mnemonics that write them (10_state.md R37 to R43). -/
def FlagsKept (mn : Mnemonic) (p q : Status) : Prop :=
  (mn ∉ [.adc, .sbc, .cmp, .cpx, .cpy, .asl, .lsr, .rol, .ror, .plp, .rti, .sec, .clc] → q.c = p.c) ∧
    (mn ∉ [.adc, .sbc, .bit, .clv, .plp, .rti] → q.v = p.v) ∧ (mn ∉ [.sei, .cli, .brk, .plp, .rti] → q.i = p.i) ∧
    (mn ∉ [.sed, .cld, .plp, .rti] → q.d = p.d) ∧ (mn ∉ [.plp, .rti] → q.b = p.b) ∧
    (mn ∉ [.lda, .ldx, .ldy, .tax, .tay, .txa, .tya, .tsx, .pla, .adc, .sbc, .and, .ora, .eor, .inc, .dec, .inx, .iny, .dex,
      .dey, .asl, .lsr, .rol, .ror, .cmp, .cpx, .cpy, .bit, .plp, .rti] → q.z = p.z ∧ q.n = p.n)

theorem FlagsKept.refl (mn : Mnemonic) (p : Status) : FlagsKept mn p p :=
  ⟨fun _ => rfl, fun _ => rfl, fun _ => rfl, fun _ => rfl, fun _ => rfl, fun _ => ⟨rfl, rfl⟩⟩

theorem operandEffect_flagsKept (mn : Mnemonic) (v : Byte) (s : State) : FlagsKept mn s.p (operandEffect mn v s).p := by
  cases mn <;> simp [FlagsKept, operandEffect, adc, sbc, andA, ora, eor, cmp, cpx, cpy, bit, addFlags, compareFlags, bitFlags]

theorem impliedEffect_flagsKept (mn : Mnemonic) (s : State) : FlagsKept mn s.p (impliedEffect mn s).p := by
  cases mn <;> simp [FlagsKept, impliedEffect]

theorem byteOperation_flagsKept {mn : Mnemonic} (kind : mnemonicKind mn = .modify) (v : Byte) (p : Status) :
    FlagsKept mn p (byteOperation mn v p).2 := by
  revert kind
  cases mn <;> simp [mnemonicKind, FlagsKept, byteOperation, increment, decrement, shiftLeft, shiftRight, rotateLeft, rotateRight]

/-- Taking an interrupt pushes three bytes (60_exceptions.md R310). -/
theorem enterInterrupt_sp (ret : Word) (b : Bool) (vector : Word) (s : State) :
    (enterInterrupt ret b vector s).sp = s.sp - 3 := by
  have hsp : s.sp - 1 - 1 - 1 = s.sp - 3 := by bv_omega
  rw [← hsp]
  rfl

/-- SP after an instruction, by its mnemonic (10_state.md R45). -/
def spAfter (mn : Mnemonic) (s : State) : Byte :=
  match mn with
  | .pha | .php => s.sp - 1
  | .jsr => s.sp - 2
  | .brk => s.sp - 3
  | .pla | .plp => s.sp + 1
  | .rts => s.sp + 2
  | .rti => s.sp + 3
  | .txs => s.x
  | _ => s.sp

theorem operandEffect_sp (mn : Mnemonic) (v : Byte) (s : State) : (operandEffect mn v s).sp = s.sp := by
  cases mn <;> rfl

theorem impliedEffect_sp {mn : Mnemonic} (kind : mnemonicKind mn = .implied) (s : State) :
    (impliedEffect mn s).sp = spAfter mn s := by
  revert kind
  cases mn <;> simp [mnemonicKind, impliedEffect, spAfter]

/-- No operand, store, read-modify-write, branch or jump mnemonic moves SP. -/
theorem spAfter_eq_sp {mn : Mnemonic} (h : mnemonicKind mn = .operand ∨ mnemonicKind mn = .store ∨ mnemonicKind mn = .modify ∨
    mnemonicKind mn = .branch ∨ mn = .jmp ∨ mn = .illegal) (s : State) : spAfter mn s = s.sp := by
  revert h
  cases mn <;> simp [mnemonicKind, spAfter]

/-- An instruction moves SP as its mnemonic does (10_state.md R45). -/
theorem exec_sp {i : Instr} {s t : State} (h : exec i s = .next t) : t.sp = spAfter i.mnemonic s := by
  obtain ⟨r, hr, -, -, -, hsp, -⟩ := exec_registers h
  rw [hsp]
  cases hr with
  | operand v kind => rw [operandEffect_sp, spAfter_eq_sp (.inl kind)]
  | same kind => rw [spAfter_eq_sp (by tauto)]
  | modify v kind => rw [spAfter_eq_sp (.inr (.inr (.inl kind))), State.withP_sp]
  | acc mode kind => rw [spAfter_eq_sp (.inr (.inr (.inl kind)))]
  | implied kind => exact impliedEffect_sp kind s
  | jsr ret mnemonic => rw [mnemonic, State.pushWord_eq, spAfter]
  | rts mnemonic => rw [mnemonic, State.popped_popped, spAfter]
  | brk ret mnemonic => rw [mnemonic, enterInterrupt_sp, spAfter]
  | rti mnemonic => rw [mnemonic, returnFromInterrupt_eq, spAfter]

end Sys2Proof.Machine

open Sys2Proof.Machine Sys2Proof.Claims

/-- Settles O50: an instruction's effect on A, X and Y is its mnemonic's. -/
theorem accumulatorIsWrittenOnlyByItsInstructions : Obligations.AccumulatorIsWrittenOnlyByItsInstructions := by
  intro i s t h
  obtain ⟨r, hr, ha, hx, hy, -, -⟩ := exec_registers h
  rw [ha, hx, hy]
  cases hr with
  | operand v =>
    obtain ⟨ha, hx, hy⟩ := operandEffect_axyKept i.mnemonic v s
    exact ⟨fun h _ => ha h, hx, hy⟩
  | implied =>
    obtain ⟨ha, hx, hy⟩ := impliedEffect_axyKept i.mnemonic s
    exact ⟨fun h _ => ha h, hx, hy⟩
  | acc mode => exact ⟨fun _ hmode => absurd mode hmode, fun _ => rfl, fun _ => rfl⟩
  | same | modify | jsr | rts | brk | rti => exact ⟨fun _ _ => rfl, fun _ => rfl, fun _ => rfl⟩

/-- Settles O51: an instruction's effect on the flags is its mnemonic's. -/
theorem flagsAreWrittenOnlyByTheirInstructions : Obligations.FlagsAreWrittenOnlyByTheirInstructions := by
  intro i s t h
  obtain ⟨r, hr, -, -, -, -, hp⟩ := exec_registers h
  rw [hp]
  cases hr with
  | operand v => exact operandEffect_flagsKept i.mnemonic v s
  | implied => exact impliedEffect_flagsKept i.mnemonic s
  | modify v kind => exact byteOperation_flagsKept kind v s.p
  | acc mode kind => exact byteOperation_flagsKept kind s.a s.p
  | same | jsr | rts => exact FlagsKept.refl i.mnemonic s.p
  | brk ret mnemonic =>
    rw [enterInterrupt_p]
    simp [mnemonic]
  | rti mnemonic => simp [mnemonic]

/-- Settles O52: SP after an instruction is given by its mnemonic. -/
theorem stackPointerMovesByItsInstructions : Obligations.StackPointerMovesByItsInstructions := by
  intro i s t h
  rw [exec_sp h]
  cases i.mnemonic <;> simp [spAfter]
end

section
/-! SUPPORT. What an instruction does to the memories: bus reads change no byte, a store changes what its one bus write does, and a
push its stack slots (40_addressing.md R144, 20_memory.md R64, 00_scope.md R9). -/

namespace Sys2Proof.Machine

open Sys2Proof.Claims

/-- The mnemonics of the store and read-modify-write kinds write memory (40_addressing.md R144). -/
theorem mem_storing_of_kind {mn : Mnemonic} (h : mnemonicKind mn = .store ∨ mnemonicKind mn = .modify) : mn ∈ storing := by
  revert h
  cases mn <;> simp [mnemonicKind, storing]

/-- An implied instruction that pushes nothing changes CPU registers only. -/
theorem impliedEffect_cpuFrom {mn : Mnemonic} (h : mn ∉ storing) (s : State) : CpuFrom s (impliedEffect mn s) := by
  cases mn
  case pha | php => exact absurd (by decide) h
  all_goals rfl

/-- An operand mnemonic's effect changes CPU registers only. -/
theorem operandEffect_cpuFrom (mn : Mnemonic) (v : Byte) (s : State) : CpuFrom s (operandEffect mn v s) := by
  cases mn <;> rfl

/-- A memory operand form is not the accumulator's. -/
theorem MemMode.mode_ne_acc (m : MemMode) : m.mode ≠ .acc := by
  cases m <;> exact nofun

/-- The end of an instruction sets CPU registers. -/
theorem CpuFrom.retire {s t : State} (h : CpuFrom s t) (pc : Word) (cost : Nat) : CpuFrom s (t.retire pc cost) := by
  rw [CpuFrom] at h ⊢
  rw [h]
  rfl

/-- An instruction that does not store makes bus reads and sets CPU registers, and no more (40_addressing.md R144). -/
theorem exec_reads {i : Instr} {s t : State} (h : exec i s = .next t) (hi : i.mnemonic ∉ storing ∨ i.mode = .acc) :
    ∃ u, ReadFrom s u ∧ CpuFrom u t := by
  cases exec_class i with
  | imm v tabled meaning =>
    rw [meaning] at h
    cases h
    exact ⟨s, .refl s, (operandEffect_cpuFrom _ v s).retire _ _⟩
  | read m base tabled meaning =>
    rw [meaning] at h
    obtain ⟨v, u, hr, rfl⟩ := readMem_next h
    exact ⟨u, memRead_readFrom hr, (operandEffect_cpuFrom _ v u).retire _ _⟩
  | write m base tabled meaning =>
    exact absurd (tabled.mode_eq ▸ hi.resolve_left (not_not_intro (mem_storing_of_kind (.inl tabled.kind_eq)))) m.mode_ne_acc
  | modify m base tabled meaning =>
    exact absurd (tabled.mode_eq ▸ hi.resolve_left (not_not_intro (mem_storing_of_kind (.inr tabled.kind_eq)))) m.mode_ne_acc
  | acc tabled meaning =>
    rw [meaning] at h
    cases h
    exact ⟨s, .refl s, rfl⟩
  | branch off tabled meaning =>
    rw [meaning] at h
    obtain ⟨pc, cost, rfl, -⟩ := branch_next h
    exact ⟨s, .refl s, rfl⟩
  | implied base tabled meaning =>
    rw [meaning] at h
    cases h
    have hmn := hi.resolve_right (by rw [tabled.mode_eq]; exact nofun)
    exact ⟨s, .refl s, (impliedEffect_cpuFrom hmn s).retire _ _⟩
  | jmpInd a eq =>
    subst eq
    obtain ⟨target, u, hr, rfl⟩ := jmpInd_next h
    exact ⟨u, readPageWord_readFrom hr, rfl⟩
  | jsr a eq => subst eq; exact hi.elim (absurd (by decide : Mnemonic.jsr ∈ storing)) nofun
  | brk eq => subst eq; exact absurd hi (by decide)
  | jmpAbs a eq => subst eq; cases h; exact ⟨s, .refl s, rfl⟩
  | rts eq => subst eq; cases h; exact ⟨s, .refl s, rfl⟩
  | rti eq => subst eq; cases h; exact ⟨s, .refl s, rfl⟩
  | illegal op eq => subst eq; cases h; exact ⟨s, .refl s, rfl⟩

/-- A store or read-modify-write makes bus reads, one bus write at its effective address, and sets CPU registers
(40_addressing.md R144). -/
theorem exec_stores {i : Instr} {m : MemMode} {s t : State} (hm : storeForm i = some m) (h : exec i s = .next t) :
    ∃ v u w, ReadFrom s u ∧ memWrite (effectiveAddress m s) v u = .ok w ∧ CpuFrom w t := by
  cases exec_class i with
  | write m' base tabled meaning =>
    obtain rfl := Option.some.inj (hm.symm.trans tabled.stores_eq)
    rw [meaning] at h
    obtain ⟨u, hw, rfl⟩ := writeMem_next h
    exact ⟨_, s, u, .refl s, hw, rfl⟩
  | modify m' base tabled meaning =>
    obtain rfl := Option.some.inj (hm.symm.trans tabled.stores_eq)
    rw [meaning] at h
    obtain ⟨v, u, w, hr, hw, rfl⟩ := modifyMem_next h
    exact ⟨_, u, w, memRead_readFrom hr, hw, rfl⟩
  | imm v tabled meaning => exact absurd (hm.symm.trans tabled.stores_eq) nofun
  | read m' base tabled meaning => exact absurd (hm.symm.trans tabled.stores_eq) nofun
  | acc tabled meaning => exact absurd (hm.symm.trans tabled.stores_eq) nofun
  | branch off tabled meaning => exact absurd (hm.symm.trans tabled.stores_eq) nofun
  | implied base tabled meaning => exact absurd (hm.symm.trans tabled.stores_eq) nofun
  | jmpAbs a eq | jmpInd a eq | jsr a eq | illegal a eq => subst eq; cases hm
  | rts eq | brk eq | rti eq => subst eq; cases hm

/-- Two states hold the same memories: RAM, the cartridge and the PPU's three. -/
def SameMemories (s t : State) : Prop :=
  t.ram = s.ram ∧ t.cart = s.cart ∧ t.ppu.vram = s.ppu.vram ∧ t.ppu.palette = s.ppu.palette ∧ t.ppu.oam = s.ppu.oam

theorem ReadFrom.sameMemories {s t : State} (h : ReadFrom s t) : SameMemories s t ∧ t.dmaStall = s.dmaStall := by
  obtain ⟨vb, w, v, rb, h0, h1, n, rfl, -⟩ := h.touched
  exact ⟨⟨rfl, rfl, rfl, rfl, rfl⟩, rfl⟩

theorem CpuFrom.sameMemories {s t : State} (h : CpuFrom s t) : SameMemories s t ∧ t.dmaStall = s.dmaStall := by
  rw [CpuFrom] at h
  rw [h]
  exact ⟨⟨rfl, rfl, rfl, rfl, rfl⟩, rfl⟩

theorem SameMemories.trans {s t u : State} (h : SameMemories s t) (g : SameMemories t u) : SameMemories s u := by
  obtain ⟨h1, h2, h3, h4, h5⟩ := h
  obtain ⟨g1, g2, g3, g4, g5⟩ := g
  exact ⟨g1.trans h1, g2.trans h2, g3.trans h3, g4.trans h4, g5.trans h5⟩

/-- Plain memory is RAM and program ROM. -/
theorem plainByte_congr {s t : State} (hram : t.ram = s.ram) (hprg : t.cart.prg = s.cart.prg)
    (hsize : t.cart.prgSize = s.cart.prgSize) (a : Word) : plainByte t a = plainByte s a := by
  rw [plainByte, plainByte, hram, hprg, hsize]

theorem SameMemories.plainByte_eq {s t : State} (h : SameMemories s t) (a : Word) : plainByte t a = plainByte s a := by
  obtain ⟨hram, hcart, -⟩ := h
  exact plainByte_congr hram (by rw [hcart]) (by rw [hcart]) a

/-- A write to RAM leaves every byte of plain memory but the mirrors of its own (20_memory.md R65). -/
theorem plainByte_setRam {s : State} (hs : s.memoriesOk) {k : Nat} {a : Word} (h : ¬(a.toNat < 0x2000 ∧ a.toNat % 2048 = k))
    (v : Byte) : plainByte { s with ram := s.ram.set k v } a = plainByte s a := by
  obtain ⟨⟨hram, -⟩, -⟩ := hs
  unfold plainByte
  split
  · next ha => rw [Memory.get_set _ hram, if_neg fun hk => h ⟨ha, hk⟩]
  · rfl

/-- A bus write leaves program ROM alone (20_memory.md R66). -/
theorem memWrite_prg {a : Word} {v : Byte} {s t : State} (h : memWrite a v s = .ok t) :
    t.cart.prg = s.cart.prg ∧ t.cart.prgSize = s.cart.prgSize := by
  obtain ⟨ram, q, k, chr, stall, n, rfl, -⟩ := (memWrite_written h).touched
  exact ⟨rfl, rfl⟩

/-- A bus write leaves every byte of plain memory but the mirrors of the RAM byte at its address (20_memory.md R64). -/
theorem memWrite_plainByte {a b : Word} {v : Byte} {s t : State} (hs : s.memoriesOk) (h : memWrite a v s = .ok t)
    (hb : ¬(a.toNat < 0x2000 ∧ b.toNat < 0x2000 ∧ b.toNat % 2048 = a.toNat % 2048)) : plainByte t b = plainByte s b := by
  obtain ⟨hbelow, habove, -, -⟩ := memWrite_frame h
  by_cases ha : a.toNat ≤ 0x1FFF
  · rw [hbelow ha]
    exact plainByte_setRam hs (fun hk => hb ⟨Nat.lt_succ_of_le ha, hk⟩) v
  · obtain ⟨hprg, hsize⟩ := memWrite_prg h
    exact plainByte_congr (habove (by omega)) hprg hsize b

/-- PPU memory is pattern data, VRAM and the palette. -/
theorem ppuMemRead_congr {s t : State} (hcart : t.cart = s.cart) (hvram : t.ppu.vram = s.ppu.vram)
    (hpalette : t.ppu.palette = s.ppu.palette) (a : Nat) : ppuMemRead a t = ppuMemRead a s := by
  rw [ppuMemRead, ppuMemRead, hcart, hvram, hpalette]

/-- The statements' stack address lies in page 1 (00_scope.md R9). -/
theorem stackAddr_toNat (sp : Byte) : (stackAddr sp).toNat = stackIndex sp := by
  rw [stackAddr_eq_or, stackAddress_toNat, stackIndex]

/-- `t` is `s` after `n` pushes: only their slots and SP may differ (00_scope.md R9). -/
def Pushed (n : Nat) (s t : State) : Prop :=
  t.sp = s.sp - BitVec.ofNat 8 n ∧ t.memoriesOk ∧
    (∀ a : Word, (∀ k, k < n → ¬(a.toNat < 0x2000 ∧ a.toNat % 2048 = (stackAddr (s.sp - BitVec.ofNat 8 k)).toNat)) →
      plainByte t a = plainByte s a) ∧
    t.ppu = s.ppu ∧ t.pads = s.pads ∧ t.cart = s.cart ∧ t.openDraws = s.openDraws ∧ t.dmaStall = s.dmaStall

theorem Pushed.none {s : State} (hs : s.memoriesOk) : Pushed 0 s s :=
  ⟨(BitVec.sub_zero s.sp).symm, hs, fun _ _ => rfl, rfl, rfl, rfl, rfl, rfl⟩

/-- One push more. -/
theorem Pushed.push {n : Nat} {s t : State} (h : Pushed n s t) (v : Byte) : Pushed (n + 1) s (t.push v) := by
  obtain ⟨hsp, hmem, hplain, hrest⟩ := h
  refine ⟨?sp, hmem.push v, fun a ha => ?plain, hrest⟩
  case sp => exact (congrArg (· - 1#8) hsp).trans (by rw [BitVec.ofNat_add, sub_add_eq_sub_sub])
  case plain =>
    have hslot : ¬(a.toNat < 0x2000 ∧ a.toNat % 2048 = stackIndex t.sp) := by
      rw [← stackAddr_toNat, hsp]
      exact ha n (Nat.lt_succ_self n)
    exact (plainByte_setRam hmem hslot v).trans (hplain a fun k hk => ha k (Nat.lt_succ_of_lt hk))

/-- The instructions that push, by the number of bytes (44_stack.md R220, R221, 45_control.md R231, R242). -/
theorem eq_of_pushes {i : Instr} {n : Nat}
    (h : (i.mnemonic ∈ [.pha, .php] ∧ n = 1) ∨ (i.mnemonic = .jsr ∧ n = 2) ∨ (i.mnemonic = .brk ∧ n = 3)) :
    (i = .pha ∧ n = 1) ∨ (i = .php ∧ n = 1) ∨ (∃ a, i = .jsrAbs a ∧ n = 2) ∨ (i = .brk ∧ n = 3) := by
  revert h
  cases i <;> simp [Instr.mnemonic]

end Sys2Proof.Machine

open Sys2Proof Sys2Proof.Machine Sys2Proof.Claims

/-- Settles O53: such an instruction makes bus reads, which change no byte. -/
theorem instructionsThatDoNotStoreKeepMemory : Obligations.InstructionsThatDoNotStoreKeepMemory := by
  intro i s t h hi
  obtain ⟨u, hr, hc⟩ := exec_reads h hi
  obtain ⟨hmem, hstall⟩ := hr.sameMemories
  obtain ⟨hmem', hstall'⟩ := hc.sameMemories
  obtain ⟨hram, hcart, hvram, hpalette, hoam⟩ := hmem.trans hmem'
  exact ⟨(hmem.trans hmem').plainByte_eq, ppuMemRead_congr hcart hvram hpalette, fun k => by rw [hoam], hstall'.trans hstall⟩

/-- Settles O54: by where the one bus write of a store can land. -/
theorem storesChangeOnlyTheirByte : Obligations.StoresChangeOnlyTheirByte := by
  intro i m s t hm hs h
  obtain ⟨v, u, w, hr, hw, hc⟩ := exec_stores hm h
  have hmem := hr.sameMemories.1
  have hmem' := hc.sameMemories.1
  obtain ⟨-, hcart, hvram, hpalette, hoam⟩ := id hmem
  obtain ⟨-, hcart', hvram', hpalette', hoam'⟩ := id hmem'
  obtain ⟨-, -, hport4, hport7⟩ := memWrite_frame hw
  refine ⟨fun a ha => ?plain, fun h7 a => ?ppu, fun h4 hdma k => ?oam⟩
  case plain => rw [hmem'.plainByte_eq, memWrite_plainByte (hr.memoriesOk hs) hw ha, hmem.plainByte_eq]
  case ppu =>
    obtain ⟨hvram'', hpalette'', hcart''⟩ := hport7 (by omega)
    exact ppuMemRead_congr (by rw [hcart', hcart'', hcart]) (by rw [hvram', hvram'', hvram])
      (by rw [hpalette', hpalette'', hpalette]) a
  case oam =>
    have hne : effectiveAddress m s ≠ 0x4014 := fun he => hdma (by rw [he]; rfl)
    rw [hoam', hport4 (by omega) hne, hoam]

/-- Settles O55: each push writes RAM at its own slot and lowers SP. -/
theorem pushesChangeOnlyTheirSlots : Obligations.PushesChangeOnlyTheirSlots := by
  intro i n s t hi hs h
  have hpushed : ∃ u, Pushed n s u ∧ CpuFrom u t := by
    rcases eq_of_pushes hi with ⟨rfl, rfl⟩ | ⟨rfl, rfl⟩ | ⟨a, rfl, rfl⟩ | ⟨rfl, rfl⟩ <;> cases h
    · exact ⟨_, (Pushed.none hs).push s.a, rfl⟩
    · exact ⟨_, (Pushed.none hs).push (pack s.p true), rfl⟩
    · exact ⟨_, ((Pushed.none hs).push (highByte (s.pc + 2))).push (lowByte (s.pc + 2)), rfl⟩
    · exact ⟨_, (((Pushed.none hs).push (highByte (s.pc + 2))).push (lowByte (s.pc + 2))).push (pack s.p true), rfl⟩
  obtain ⟨u, ⟨-, -, hplain, hrest⟩, hc⟩ := hpushed
  rw [CpuFrom] at hc
  rw [hc]
  exact ⟨hplain, hrest⟩

/-- Settles O56: bus accesses leave timing and inputs alone, and only an undefined opcode writes the halted flag and its record. -/
theorem instructionsKeepTimingAndInputs : Obligations.InstructionsKeepTimingAndInputs := by
  intro i s t h
  have hhalted : i.mnemonic ≠ .illegal → t.halted = s.halted ∧ t.fault = s.fault := fun hi => by
    rcases exec_halted h with ⟨-, hh⟩ | ⟨op, rfl, -⟩
    · exact hh
    · exact absurd rfl hi
  obtain ⟨u, hw, -, hc⟩ := exec_from h
  obtain ⟨ram, q, k, chr, stall, n, rfl, hv⟩ := hw.touched
  rw [CpuFrom] at hc
  rw [hc] at hhalted ⊢
  exact ⟨rfl, rfl, rfl, rfl, rfl, rfl, rfl, rfl, rfl, rfl, rfl, rfl, rfl, hv, hhalted⟩
end

section
/-! SUPPORT. The cost an instruction sets: its class's base, and the penalties of page crossings and branches
(70_reset_and_hazards.md R412, R413). -/

namespace Sys2Proof.Machine

open Sys2Proof.Claims

/-- The base cost of an instruction, by the opcode byte it encodes to (70_reset_and_hazards.md R413). -/
theorem tableCost_of_encode {i : Instr} {op : Byte} {operands : List Byte} {base : Nat} (h : encode i = op :: operands)
    (hb : tableCost op = base) : base = tableCost (opcodeOf i) := by
  rw [opcodeOf_eq h, hb]

/-- Only the three indexed forms that carry into the high byte can cross a page (40_addressing.md R138, R139, R142). -/
theorem pageCrossed_eq_false {m : MemMode} (h : m.mode ∉ [.abx, .aby, .izy]) (s : State) : pageCrossed m s = false := by
  cases m
  case abx | aby | izy => exact absurd (by simp [MemMode.mode]) h
  all_goals rfl

end Sys2Proof.Machine

open Sys2Proof Sys2Proof.Machine Sys2Proof.Claims

/-- Settles O58: every class sets its base cost; the read class adds a page crossing, the branch class one or two cycles. -/
theorem costsAreTheTablesBaseCosts : Obligations.CostsAreTheTablesBaseCosts := by
  intro i s t h hi
  have hbase : t.cyclesRemaining = tableCost (opcodeOf i) →
      (i.mode ∉ [.abx, .aby, .izy, .rel] → t.cyclesRemaining = tableCost (opcodeOf i)) ∧
      (storeForm i ≠ none → t.cyclesRemaining = tableCost (opcodeOf i)) ∧
      (i.mode ∈ [.abx, .aby, .izy] → t.cyclesRemaining = tableCost (opcodeOf i) ∨
        t.cyclesRemaining = tableCost (opcodeOf i) + 1) ∧
      (i.mode = .rel → t.cyclesRemaining = tableCost (opcodeOf i) ∨ t.cyclesRemaining = tableCost (opcodeOf i) + 1 ∨
        t.cyclesRemaining = tableCost (opcodeOf i) + 2) :=
    fun hc => ⟨fun _ => hc, fun _ => hc, fun _ => .inl hc, fun _ => .inl hc⟩
  cases exec_class i with
  | imm v tabled meaning => rw [meaning] at h; cases h; exact hbase tabled.base_eq.symm
  | acc tabled meaning => rw [meaning] at h; cases h; exact hbase tabled.base_eq.symm
  | implied base tabled meaning => rw [meaning] at h; cases h; exact hbase tabled.base_eq.symm
  | write m base tabled meaning =>
    rw [meaning] at h
    obtain ⟨u, -, rfl⟩ := writeMem_next h
    exact hbase tabled.base_eq.symm
  | modify m base tabled meaning =>
    rw [meaning] at h
    obtain ⟨v, u, w, -, -, rfl⟩ := modifyMem_next h
    exact hbase tabled.base_eq.symm
  | read m base tabled meaning =>
    rw [meaning] at h
    obtain ⟨v, u, -, rfl⟩ := readMem_next h
    have hcost : (State.retire (s.pc + modeLength m) (base + (pageCrossed m s).toNat) (operandEffect i.mnemonic v u)).cyclesRemaining =
        base + (pageCrossed m s).toNat := rfl
    rw [hcost, tabled.base_eq, tabled.mode_eq, tabled.stores_eq]
    refine ⟨fun hm => ?_, fun hs => absurd rfl hs, fun _ => ?_, fun hm => ?_⟩
    · rw [pageCrossed_eq_false (fun hmem => hm (by simp at hmem ⊢; tauto))]
      rfl
    · have := Bool.toNat_le (pageCrossed m s)
      omega
    · cases m <;> cases hm
  | branch off tabled meaning =>
    rw [meaning] at h
    obtain ⟨pc, cost, rfl, hcost⟩ := branch_next h
    have hc : (s.retire pc cost).cyclesRemaining = cost := rfl
    rw [hc, tabled.base_eq, tabled.mode_eq, tabled.stores_eq]
    exact ⟨fun hm => absurd (by decide) hm, fun hs => absurd rfl hs, fun hm => absurd hm (by decide), fun _ => hcost⟩
  | jmpInd a eq =>
    subst eq
    obtain ⟨target, u, -, rfl⟩ := jmpInd_next h
    exact hbase (tableCost_of_encode (base := 5) rfl rfl)
  | jmpAbs a eq => subst eq; cases h; exact hbase (tableCost_of_encode (base := 3) rfl rfl)
  | jsr a eq => subst eq; cases h; exact hbase (tableCost_of_encode (base := 6) rfl rfl)
  | rts eq => subst eq; cases h; exact hbase (tableCost_of_encode (base := 6) rfl rfl)
  | brk eq => subst eq; cases h; exact hbase (tableCost_of_encode (base := 7) rfl rfl)
  | rti eq => subst eq; cases h; exact hbase (tableCost_of_encode (base := 6) rfl rfl)
  | illegal op eq => subst eq; exact absurd rfl hi
end

section
/-! SUPPORT. When an instruction or a fetch stops: it is refused exactly where it accesses a data port while rendering
(93_implementation_defined.md U4; log 9). -/

namespace Sys2Proof.Machine

open Sys2Proof.Claims

theorem portRefusal_iff (a : Word) (s : State) (r : Refusal) :
    PortRefusal a s r ↔ renders s ∧ ∃ k, dataPort k a ∧ r = .portWhileRendering k := by
  rw [renders_iff_rendering]
  constructor
  · rintro ⟨hrenders, hlo, hhi, ⟨hport, hr⟩ | ⟨hport, hr⟩⟩
    · exact ⟨hrenders, 4, ⟨.inl rfl, hlo, by omega, hport⟩, hr⟩
    · exact ⟨hrenders, 7, ⟨.inr rfl, hlo, by omega, hport⟩, hr⟩
  · rintro ⟨hrenders, k, ⟨rfl | rfl, hlo, hhi, hport⟩, hr⟩
    · exact ⟨hrenders, hlo, by omega, .inl ⟨hport, hr⟩⟩
    · exact ⟨hrenders, hlo, by omega, .inr ⟨hport, hr⟩⟩

/-- Of a page only $20 to $3F hold PPU ports. -/
theorem dataPort_word {k : Nat} {low d : Byte} (h : dataPort k (word low d)) : 0x20 ≤ d.toNat ∧ d.toNat ≤ 0x3F := by
  obtain ⟨-, hlo, hhi, -⟩ := h
  rw [word_eq_wordOf, wordOf_toNat] at hlo hhi
  have := low.isLt
  omega

theorem dataPort_oamData {d : Byte} (hlo : 0x20 ≤ d.toNat) (hhi : d.toNat ≤ 0x3F) : dataPort 4 (word 4 d) := by
  have ha : (word 4 d).toNat = d.toNat * 256 + 4 := by rw [word_eq_wordOf, wordOf_toNat]; rfl
  exact ⟨.inl rfl, by omega, by omega, by omega⟩

/-- A refusal that names a data port which the instruction accesses while rendering. -/
def ReachedRefusal (i : Instr) (s : State) (r : Refusal) : Prop :=
  renders s ∧ ∃ k a, dataPort k a ∧ Reaches i s a ∧ r = .portWhileRendering k

/-- The instruction is refused only at an accessed data port, and whenever it accesses one while rendering. -/
def RefusedWhereReached (i : Instr) (s : State) : Prop :=
  (∀ r, exec i s = .refused r → ReachedRefusal i s r) ∧ ((∃ r, ReachedRefusal i s r) → ∃ r, exec i s = .refused r)

/-- What an instruction but JMP ind accesses, by its operand forms. -/
theorem reaches_iff {i : Instr} {reads stores : Option MemMode} (hreads : readForm i = reads) (hstores : storeForm i = stores)
    (hjmp : ∀ p, i ≠ .jmpInd p) (s : State) (a : Word) : Reaches i s a ↔
      (∃ m, (reads = some m ∨ stores = some m) ∧ a = effectiveAddress m s) ∨
      (∃ m k, stores = some m ∧ effectiveAddress m s = 0x4014 ∧ a = word k (dmaPage i s)) := by
  subst hreads hstores
  refine ⟨fun h => h.imp_right fun h => h.resolve_right ?_, fun h => h.imp_right .inl⟩
  rintro ⟨p, hp, -⟩
  exact hjmp p hp

theorem refusedWhereReached_of_quiet {i : Instr} {s : State} (hreads : readForm i = none) (hstores : storeForm i = none)
    (hjmp : ∀ p, i ≠ .jmpInd p) (hexec : ∀ r, exec i s ≠ .refused r) : RefusedWhereReached i s := by
  refine ⟨fun r h => absurd h (hexec r), ?_⟩
  rintro ⟨-, -, -, a, -, hreach, -⟩
  simp [reaches_iff hreads hstores hjmp] at hreach

theorem refusedWhereReached_of_read {i : Instr} {s : State} {m : MemMode} (hreads : readForm i = some m) (hstores : storeForm i = none)
    (hjmp : ∀ p, i ≠ .jmpInd p) (hexec : ∀ r, exec i s = .refused r ↔ PortRefusal (effectiveAddress m s) s r) :
    RefusedWhereReached i s := by
  have hreach : ∀ a, Reaches i s a ↔ a = effectiveAddress m s := by simp [reaches_iff hreads hstores hjmp]
  refine ⟨fun r h => ?_, ?_⟩
  · obtain ⟨hrenders, k, hport, hr⟩ := (portRefusal_iff _ _ _).1 ((hexec r).1 h)
    exact ⟨hrenders, k, _, hport, (hreach _).2 rfl, hr⟩
  · rintro ⟨r, hrenders, k, a, hport, ha, hr⟩
    rw [hreach] at ha
    exact ⟨r, (hexec r).2 ((portRefusal_iff _ _ _).2 ⟨hrenders, k, ha ▸ hport, hr⟩)⟩

/-- A store is refused at its effective address, or by the copy that its write to $4014 starts. -/
theorem refusedWhereReached_of_store {i : Instr} {s : State} {m : MemMode} (hreads : readForm i = none)
    (hstores : storeForm i = some m) (hjmp : ∀ p, i ≠ .jmpInd p)
    (hexec : ∀ r, exec i s = .refused r ↔ PortRefusal (effectiveAddress m s) s r ∨ (s.ppu.rendering = true ∧
      effectiveAddress m s = 0x4014 ∧ 0x20 ≤ (dmaPage i s).toNat ∧ (dmaPage i s).toNat ≤ 0x3F ∧ r = .portWhileRendering 4)) :
    RefusedWhereReached i s := by
  have hreach : ∀ a, Reaches i s a ↔
      a = effectiveAddress m s ∨ (effectiveAddress m s = 0x4014 ∧ ∃ k, a = word k (dmaPage i s)) := by
    simp [reaches_iff hreads hstores hjmp]
  refine ⟨fun r h => ?_, ?_⟩
  · rcases (hexec r).1 h with hr | ⟨hrenders, hdma, hlo, hhi, hr⟩
    · obtain ⟨hrenders, k, hport, hr⟩ := (portRefusal_iff _ _ _).1 hr
      exact ⟨hrenders, k, _, hport, (hreach _).2 (.inl rfl), hr⟩
    · exact ⟨(renders_iff_rendering s).2 hrenders, 4, _, dataPort_oamData hlo hhi, (hreach _).2 (.inr ⟨hdma, 4, rfl⟩), hr⟩
  · rintro ⟨r, hrenders, k, a, hport, ha, hr⟩
    rcases (hreach a).1 ha with rfl | ⟨hdma, low, rfl⟩
    · exact ⟨r, (hexec r).2 (.inl ((portRefusal_iff _ _ _).2 ⟨hrenders, k, hport, hr⟩))⟩
    · obtain ⟨hlo, hhi⟩ := dataPort_word hport
      exact ⟨_, (hexec _).2 (.inr ⟨(renders_iff_rendering s).1 hrenders, hdma, hlo, hhi, rfl⟩)⟩

/-- The indirect jump is refused at the bytes of its pointer. -/
theorem jmpInd_refusedWhereReached (p : Word) (s : State) : RefusedWhereReached (.jmpInd p) s := by
  have hreach : ∀ a, Reaches (.jmpInd p) s a ↔ a = p ∨ a = wordOf (lowByte (p + 1)) (highByte p) := by
    simp [Reaches, readForm, storeForm, word_eq_wordOf, lo_eq_lowByte, hi_eq_highByte]
  have hexec : ∀ r, exec (.jmpInd p) s = .refused r ↔ PortRefusal p s r ∨
      ((∀ q, ¬PortRefusal p s q) ∧ PortRefusal (wordOf (lowByte (p + 1)) (highByte p)) s r) := execJmpInd_refused_iff p s
  refine ⟨fun r h => ?_, ?_⟩
  · rcases (hexec r).1 h with hr | ⟨-, hr⟩
    · obtain ⟨hrenders, k, hport, hr⟩ := (portRefusal_iff _ _ _).1 hr
      exact ⟨hrenders, k, _, hport, (hreach _).2 (.inl rfl), hr⟩
    · obtain ⟨hrenders, k, hport, hr⟩ := (portRefusal_iff _ _ _).1 hr
      exact ⟨hrenders, k, _, hport, (hreach _).2 (.inr rfl), hr⟩
  · rintro ⟨r, hrenders, k, a, hport, ha, hr⟩
    have hrefused : PortRefusal a s r := (portRefusal_iff _ _ _).2 ⟨hrenders, k, hport, hr⟩
    by_cases hfirst : ∃ q, PortRefusal p s q
    · obtain ⟨q, hq⟩ := hfirst
      exact ⟨q, (hexec q).2 (.inl hq)⟩
    · rcases (hreach a).1 ha with rfl | rfl
      · exact absurd ⟨r, hrefused⟩ hfirst
      · exact ⟨r, (hexec r).2 (.inr ⟨not_exists.1 hfirst, hrefused⟩)⟩

/-- The byte a store writes is the page that a copy started at $4014 would be of. -/
theorem storedByte_eq_dmaPage {i : Instr} (h : mnemonicKind i.mnemonic = .store) (s : State) :
    storedByte i.mnemonic s = dmaPage i s := by
  unfold dmaPage
  revert h
  cases i.mnemonic
  case sta | stx | sty => exact fun _ => rfl
  all_goals exact nofun

/-- So is the byte that a read-modify-write makes of the draw for $4014. -/
theorem byteOperation_eq_dmaPage {i : Instr} (h : mnemonicKind i.mnemonic = .modify) (s : State) :
    (byteOperation i.mnemonic (Config.openBus s.openDraws 0x4014) s.p).1 = dmaPage i s := by
  unfold dmaPage
  revert h
  cases i.mnemonic
  case inc => exact fun _ => by rw [incremented_eq_increment]; rfl
  case dec => exact fun _ => by rw [decremented_eq_decrement]; rfl
  case asl => exact fun _ => by rw [asl_eq_shiftLeft]; rfl
  case lsr => exact fun _ => by rw [lsr_eq_shiftRight]; rfl
  case rol => exact fun _ => by rw [rol_eq_rotateLeft]; rfl
  case ror => exact fun _ => by rw [ror_eq_rotateRight]; rfl
  all_goals exact nofun

/-- JMP ind is the only instruction of its mode. -/
theorem ne_jmpInd_of_mode {i : Instr} {m : Mode} (h : i.mode = m) (hm : m ≠ .ind) (p : Word) : i ≠ .jmpInd p := by
  rintro rfl
  exact hm h.symm

theorem exec_refusedWhereReached (i : Instr) (s : State) : RefusedWhereReached i s := by
  cases exec_class i with
  | read m base tabled meaning =>
    refine refusedWhereReached_of_read tabled.reads_eq tabled.stores_eq (ne_jmpInd_of_mode tabled.mode_eq (by cases m <;> nofun))
      fun r => ?_
    rw [meaning, readMem_refused_iff]
  | write m base tabled meaning =>
    refine refusedWhereReached_of_store tabled.reads_eq tabled.stores_eq
      (ne_jmpInd_of_mode tabled.mode_eq (by cases m <;> nofun)) fun r => ?_
    rw [meaning, writeMem_refused_iff, memWrite_error_iff, storedByte_eq_dmaPage tabled.kind_eq]
  | modify m base tabled meaning =>
    refine refusedWhereReached_of_store tabled.reads_eq tabled.stores_eq
      (ne_jmpInd_of_mode tabled.mode_eq (by cases m <;> nofun)) fun r => ?_
    rw [meaning, modifyMem_refused_iff, byteOperation_eq_dmaPage tabled.kind_eq]
  | imm v tabled meaning =>
    exact refusedWhereReached_of_quiet tabled.reads_eq tabled.stores_eq (ne_jmpInd_of_mode tabled.mode_eq nofun)
      fun r => by rw [meaning]; nofun
  | acc tabled meaning =>
    exact refusedWhereReached_of_quiet tabled.reads_eq tabled.stores_eq (ne_jmpInd_of_mode tabled.mode_eq nofun)
      fun r => by rw [meaning]; nofun
  | branch off tabled meaning =>
    exact refusedWhereReached_of_quiet tabled.reads_eq tabled.stores_eq (ne_jmpInd_of_mode tabled.mode_eq nofun)
      fun r => by rw [meaning, branch]; split <;> nofun
  | implied base tabled meaning =>
    exact refusedWhereReached_of_quiet tabled.reads_eq tabled.stores_eq (ne_jmpInd_of_mode tabled.mode_eq nofun)
      fun r => by rw [meaning]; nofun
  | jmpInd p eq => exact eq ▸ jmpInd_refusedWhereReached p s
  | jmpAbs a eq => subst eq; exact refusedWhereReached_of_quiet rfl rfl nofun nofun
  | jsr a eq => subst eq; exact refusedWhereReached_of_quiet rfl rfl nofun nofun
  | rts eq => subst eq; exact refusedWhereReached_of_quiet rfl rfl nofun nofun
  | brk eq => subst eq; exact refusedWhereReached_of_quiet rfl rfl nofun nofun
  | rti eq => subst eq; exact refusedWhereReached_of_quiet rfl rfl nofun nofun
  | illegal op eq => subst eq; exact refusedWhereReached_of_quiet rfl rfl nofun nofun

/-- No instruction faults: the fatal decode error is a next state (60_exceptions.md R300; log 8). -/
theorem exec_not_fault (i : Instr) (s : State) (r : Fault) : exec i s ≠ .fault r := by
  cases exec_class i with
  | read m base tabled meaning => rw [meaning, readMem]; split <;> nofun
  | write m base tabled meaning => rw [meaning, writeMem]; split <;> nofun
  | modify m base tabled meaning => rw [meaning, modifyMem]; split <;> (try split) <;> nofun
  | imm v tabled meaning => rw [meaning]; nofun
  | acc tabled meaning => rw [meaning]; nofun
  | branch off tabled meaning => rw [meaning, branch]; split <;> nofun
  | implied base tabled meaning => rw [meaning]; nofun
  | jmpInd p eq =>
    subst eq
    show execJmpInd p s ≠ .fault r
    rw [execJmpInd]
    split <;> nofun
  | jmpAbs a eq => subst eq; nofun
  | jsr a eq => subst eq; nofun
  | rts eq => subst eq; nofun
  | brk eq => subst eq; nofun
  | rti eq => subst eq; nofun
  | illegal op eq => subst eq; nofun

/-- A fetch is refused at one of the three bytes from PC on. -/
theorem fetch_refusal {s : State} {r : Refusal} (h : fetch s = .error r) :
    ∃ j < 3, PortRefusal (s.pc + BitVec.ofNat 16 j) s r := by
  unfold fetch at h
  split at h
  · next hop => cases h; exact ⟨0, by omega, by rw [BitVec.add_zero]; exact (memRead_error_iff _ _ _).1 hop⟩
  · next op t hop =>
    have ht := memRead_readFrom hop
    split at h
    · cases h
    · cases h
    · cases h
    · split at h
      · next hlow => cases h; exact ⟨1, by omega, (ht.portRefusal _ _).1 ((memRead_error_iff _ _ _).1 hlow)⟩
      · cases h
    · split at h
      · next hlow => cases h; exact ⟨1, by omega, (ht.portRefusal _ _).1 ((memRead_error_iff _ _ _).1 hlow)⟩
      · next low u hlow =>
        have hu := ht.trans (memRead_readFrom hlow)
        split at h
        · next hhigh => cases h; exact ⟨2, by omega, (hu.portRefusal _ _).1 ((memRead_error_iff _ _ _).1 hhigh)⟩
        · cases h

/-- A boundary of a running session whose fetch is refused is refused. -/
theorem step_of_fetch_refused {s : State} {r : Refusal} (hrun : s.halted = false) (hc : s.cyclesRemaining = 0)
    (hnone : noInterrupt (counted s)) (hf : fetch (counted s) = .error r) : step s = .refused r := by
  have hb : boundary (counted s) = .refused r := by
    rw [boundary, if_neg (by simp [hnone.1]), if_neg (by rcases hnone.2 with hi | hi <;> simp [hi]), hf]
  rw [step_boundary hrun hc, hb]

end Sys2Proof.Machine

open Sys2Proof Sys2Proof.Machine Sys2Proof.Claims

/-- Settles O57: a refusal names an accessed data port by each access class, and a fetch's by its three bytes. -/
theorem instructionsAreRefusedOnlyWhileRendering : Obligations.InstructionsAreRefusedOnlyWhileRendering := by
  refine ⟨exec_not_fault, fun i s => ⟨?only, ?whenever⟩, fun i s r h => ?named, fun s r h => ?fetchOnly,
    fun s k hrenders hport => ?fetchWhenever, fun s r hrun hc hnone hf => ?step⟩
  case only =>
    rintro ⟨r, h⟩
    obtain ⟨hrenders, k, a, hport, hreach, -⟩ := (exec_refusedWhereReached i s).1 r h
    exact ⟨hrenders, k, a, hport, hreach⟩
  case whenever =>
    rintro ⟨hrenders, k, a, hport, hreach⟩
    exact (exec_refusedWhereReached i s).2 ⟨_, hrenders, k, a, hport, hreach, rfl⟩
  case named =>
    exact ((exec_refusedWhereReached i s).1 r h).2
  case fetchOnly =>
    obtain ⟨j, hj, hrefused⟩ := fetch_refusal h
    obtain ⟨hrenders, k, hport, hr⟩ := (portRefusal_iff _ _ _).1 hrefused
    exact ⟨hrenders, k, j, hj, hport, hr⟩
  case fetchWhenever =>
    have hread := (memRead_error_iff s.pc s _).2 ((portRefusal_iff _ _ _).2 ⟨hrenders, k, hport, rfl⟩)
    rw [fetch, hread]
  case step =>
    rw [atBoundary_eq_counted] at hnone hf
    exact step_of_fetch_refused hrun hc hnone hf
end

section
/-! SUPPORT. Nothing stops a running session with rendering off: its fetch and its instruction both answer
(70_reset_and_hazards.md R421). -/

namespace Sys2Proof.Machine

open Sys2Proof.Claims

theorem State.Running.not_rendering {s : State} (h : s.Running) : ¬s.ppu.rendering = true := by
  obtain ⟨-, h3, h4⟩ := h
  simp only [Ppu.rendering_iff, h3, h4, Bool.false_eq_true, or_self, false_and, not_false_eq_true]

theorem ReadFrom.running {s t : State} (h : ReadFrom s t) (hs : s.Running) : t.Running := by
  obtain ⟨vb, w, v, rb, h0, h1, n, rfl, -⟩ := h.touched
  exact hs

theorem counted_running {s : State} (h : s.Running) : (counted s).Running := (threeDots_dotted s).keeps.2.2 h

theorem fetch_of_running {s : State} (h : s.Running) : ∃ i t, fetch s = .ok (i, t) := by
  cases hf : fetch s with
  | ok p => exact ⟨p.1, p.2, rfl⟩
  | error r =>
    obtain ⟨j, -, hrendering, -⟩ := fetch_refusal hf
    exact absurd hrendering h.not_rendering

theorem exec_of_running {s : State} (h : s.Running) (i : Instr) : ∃ t, exec i s = .next t := by
  cases he : exec i s with
  | next t => exact ⟨t, rfl⟩
  | fault r => exact absurd he (exec_not_fault i s r)
  | refused r =>
    obtain ⟨hrenders, -⟩ := (exec_refusedWhereReached i s).1 r he
    exact absurd ((renders_iff_rendering s).1 hrenders) h.not_rendering

/-- A boundary enters an interrupt or runs the fetched instruction, and either gives a state. -/
theorem boundary_of_running {s : State} (h : s.Running) : ∃ t, boundary s = .next t := by
  cases hn : s.nmiPending with
  | true => exact ⟨_, boundary_nmi hn⟩
  | false =>
    by_cases hi : s.irqLine = false ∨ s.p.i = true
    · obtain ⟨i, t, hf⟩ := fetch_of_running h
      obtain ⟨u, he⟩ := exec_of_running ((fetch_readFrom hf).running h) i
      exact ⟨u, (boundary_fetch hn hi hf).trans he⟩
    · simp only [not_or, Bool.not_eq_false, Bool.not_eq_true] at hi
      exact ⟨_, boundary_irq hn hi.1 hi.2⟩

end Sys2Proof.Machine

open Sys2Proof Sys2Proof.Machine Sys2Proof.Claims

/-- Settles O60: inside an instruction a step only counts, and a boundary gives a state because nothing it does is refused. -/
theorem runningMachineAlwaysHasANextStep : Obligations.RunningMachineAlwaysHasANextStep := by
  intro s hs
  by_cases hc : s.cyclesRemaining = 0
  · obtain ⟨t, ht⟩ := boundary_of_running (counted_running hs)
    exact ⟨_, step_of_boundary hs.1 hc ht⟩
  · exact ⟨_, step_inside hs.1 hc⟩
end
